-- ==== Sys2Proof/Word.lean ====
section
/-! DEFINITION. The widths of the block's quantities (00_scope.md R7, R8; 10_state.md R10). -/

namespace Sys2Proof

/-- A byte: an unsigned value 0 to 255 (R8). Its `+` is the spec's `+_8`, addition modulo 256. -/
abbrev Byte := BitVec 8

/-- A bus address, unshifted (`ADDR_W` = 7, R7, R11). -/
abbrev BusAddr := BitVec 7

/-- A 16-bit quantity: the decoded magnitude (`MAG_W`, R7) or a register pointer (R60). -/
abbrev Half := BitVec 16

/-- The host's select code `op_sel` (R64). -/
abbrev OpSel := BitVec 2

end Sys2Proof
end

