-- ==== Sys2Proof/Syntax.lean ====
section
/-! DEFINITION. The four operations (44_operations.md R108 to R111), the interface actions (00_scope.md R9) and the
environment's answers to a read (20_memory.md R45). -/

namespace Sys2Proof

/-- The block's whole instruction set: "The four operations are the instruction set of K33-PH". No operation has an
operand (R107). -/
inductive Instr where
  /-- initiate-measurement (R108) -/
  | initMeas
  /-- read CO2 concentration (R109) -/
  | readCo2
  /-- read temperature (R110) -/
  | readTemp
  /-- read relative humidity (R111) -/
  | readRh
  deriving DecidableEq, Repr

/-- The eleven interface actions (R9). A returned count or byte is part of the action, as the spec's traces write it. -/
inductive Action where
  /-- the transport's hardware engine releases the data line and stops -/
  | engineDisable
  /-- the data line is driven low -/
  | sdaLow
  /-- the data line returns high -/
  | sdaHigh
  /-- the transport's engine owns the lines again -/
  | engineEnable
  /-- the block does nothing for at least `d` time units -/
  | delay (d : Nat)
  /-- opens a write transaction to address `a` -/
  | beginWrite (a : BusAddr)
  /-- queues or sends byte `b` in the open write transaction -/
  | writeByte (b : Byte)
  /-- closes the write transaction -/
  | endWrite
  /-- opens a read transaction to address `a` asking for exactly `n` bytes -/
  | beginRead (a : BusAddr) (n : Nat)
  /-- asked how many received bytes have not yet been taken; the transport returned `c` -/
  | bytesAvailable (c : Nat)
  /-- the oldest byte not yet taken was taken; it was `b` -/
  | readByte (b : Byte)
  deriving DecidableEq, Repr

/-- What the environment answers to a `BeginRead` (R45): it makes some bytes available, or it never returns (R87). -/
inductive Answer where
  /-- `BeginRead` returns and these bytes are available, first to arrive first -/
  | bytes (avail : List Byte)
  /-- `BeginRead` never returns -/
  | never
  deriving DecidableEq, Repr, Inhabited

end Sys2Proof
end

