-- ==== Sys2Proof/Config.lean ====
section
/-! DEFINITION. What an implementation fixes (00_scope.md R7) and the values the spec leaves open. The open values are
constants with no body: no proof can learn what they are. -/

namespace Sys2Proof

/-- A binary floating-point format: one sign bit, `expBits` exponent bits, `fracBits` fraction bits (`FLOAT_FMT`, R7, R100). -/
structure FloatFmt where
  expBits : Nat
  fracBits : Nat
  deriving DecidableEq, Repr

namespace Config

/-- `DEFAULT_ADDR`, OPEN (R7, R41): "a well-known constant for this sensor family" that the source never prints. -/
opaque defaultAddr : BusAddr

/-- The address the caller supplied at construction, if the alternate constructor was used (R7, R11); OPEN. -/
opaque suppliedAddr : Option BusAddr

/-- `ADDR_CFG` (R7): the supplied address, or `DEFAULT_ADDR` when the default constructor is used. -/
def addrCfg : BusAddr := suppliedAddr.getD defaultAddr

/-- `T_WAKE_LOW` (R7, R70): how long the data line is held low. -/
def tWakeLow : Nat := 1

/-- `T_WAKE_SETTLE` (R7, R70): the wait after the engine is re-enabled. -/
def tWakeSettle : Nat := 1

/-- `T_CMD_SETTLE` (R7, R80): the wait between the end of the command write and the start of the read. -/
def tCmdSettle : Nat := 20

/-- `TRANSPORT_READ_RETURNS`, OPEN (R7, R87): whether the transport's read-open call always returns. It constrains the
free answers only; a listed answer `never` is the environment withholding its return whatever this says. -/
opaque transportReadReturns : Bool

/-- The environment's answer to the `d`-th read that no listed answer covers: a FREE VALUE (R45). -/
opaque freeAnswer : Nat → Answer

/-- The bytes that stand in for a free answer `never` when the transport's read always returns: a FREE VALUE. -/
opaque freeBytes : Nat → List Byte

/-- IEEE binary32 (R100). -/
def binary32 : FloatFmt := { expBits := 8, fracBits := 23 }

/-- IEEE binary64, the other value of the parameter that 95_test_vectors.md section 3 tabulates. -/
def binary64 : FloatFmt := { expBits := 11, fracBits := 52 }

/-- `FLOAT_FMT` (R7, R100): the format of the host port `res_f`. -/
abbrev floatFmt : FloatFmt := binary32

end Config

end Sys2Proof
end

