-- ==== Sys2Proof/Machine/State.lean ====
section
/-! DEFINITION. The state of the block (10_state.md R10 to R21) and of its environment (R25), the reasons to stop, reset. -/

namespace Sys2Proof.Machine

/-- PHASE, the sequencer register and program counter (R21): 17 values. -/
inductive Phase where
  | idle
  | wakeDisable
  | wakeLow
  | wakeHold
  | wakeHigh
  | wakeEnable
  | wakeSettle
  | txBegin
  | txByte
  | txEnd
  | cmdSettle
  | rxBegin
  | rxPoll
  | rxByte
  | check
  | decode
  | fail
  deriving DecidableEq, Repr

/-- `RES.kind` (R19). -/
inductive ResKind where
  | none
  | value
  | error
  deriving DecidableEq, Repr

/-- RES, the tagged result register (R19). -/
structure Result where
  kind : ResKind
  mag : Half
  q : BitVec 1
  deriving DecidableEq, Repr

/-- STATUS, three one-bit flags (R20). -/
structure Status where
  busy : Bool
  done : Bool
  err : Bool
  deriving DecidableEq, Repr

/-- The environment's state (R25) as far as the block's actions touch it, the trace of actions (00_scope.md R9), and what the
host and the environment are going to do. It is not part of the block, which sees it only through its actions. -/
structure Env where
  /-- the transport's engine is enabled -/
  engineOn : Bool
  /-- the pin forces the data line low -/
  lineLow : Bool
  /-- the transport's receive queue, oldest byte first -/
  rxQueue : List Byte
  /-- a `BeginRead` was issued and has not returned (R87) -/
  readPending : Bool
  /-- the actions performed so far, oldest first -/
  trace : List Action
  /-- the answers to the coming reads, oldest first; after them the answers are free values (R45) -/
  answers : List Answer
  /-- how many free answers have been used -/
  draws : Nat
  /-- the `op_sel` of the starts the host is going to raise, the next one first; each is raised when the block is idle -/
  starts : List OpSel
  deriving DecidableEq, Repr

/-- The registers of R10, and the environment. -/
structure State where
  /-- ADDR (R11) -/
  addr : BusAddr
  /-- OPSEL (R12) -/
  opsel : OpSel
  /-- TXBUF[0..4] (R13) -/
  txbuf : Vector Byte 5
  /-- TXLEN (R13) -/
  txlen : BitVec 3
  /-- RXBUF[0..3] (R14) -/
  rxbuf : Vector Byte 4
  /-- RXLEN (R14) -/
  rxlen : BitVec 3
  /-- IDX (R15) -/
  idx : BitVec 3
  /-- CHK (R16) -/
  chk : Byte
  /-- MAG (R17) -/
  mag : Half
  /-- DIVSEL (R18) -/
  divsel : BitVec 1
  /-- RES (R19) -/
  res : Result
  /-- STATUS (R20) -/
  status : Status
  /-- PHASE (R21) -/
  phase : Phase
  /-- the environment (R25) -/
  env : Env
  deriving DecidableEq, Repr

/-- No fault exists: "There is no fatal/unrecoverable error path" (60_exceptions.md R117). A failed checksum is a value. -/
inductive Fault where
  deriving DecidableEq, Repr

/-- Why a step has no next state. -/
inductive Refusal where
  /-- Raised by `exec` for an operation whose meaning is not written; none is left. Safe. -/
  | notModelled (mnemonic : String)
  /-- Raised by an accept while `STATUS.BUSY` is 1: "a model has no such move, or refuses it" (R24). Safe. -/
  | startWhileBusy
  /-- Raised by RX_BEGIN, RX_BYTE and the four operations when the transport offers more bytes than were asked for: "a model
  takes k <= RXLEN as a premise on the environment, or refuses such a run" (R84). Safe. -/
  | overDelivery
  /-- Raised by RX_BYTE when the transport has no byte to hand over, which its count excludes (R84, U4). No run reaches it. Safe. -/
  | noByteToRead
  /-- Raised by TX_BYTE when IDX is outside TXBUF (R15 bounds it). No run reaches it. Safe. -/
  | frameIndex
  deriving DecidableEq, Repr

/-- The environment before the first operation: engine enabled and line free as R139 asks, nothing performed, nothing planned. -/
def Env.reset : Env where
  engineOn := true
  lineLow := false
  rxQueue := []
  readPending := false
  trace := []
  answers := []
  draws := 0
  starts := []

/-- The state after a reset that samples `a` on the input `addr_cfg` (10_state.md R27, 70_reset_and_hazards.md R136). -/
def State.resetWith (a : BusAddr) : State where
  addr := a
  opsel := 0
  txbuf := #v[0x00, 0x00, 0x00, 0x00, 0x00]
  txlen := 4
  rxbuf := #v[0x00, 0x00, 0x00, 0x00]
  rxlen := 4
  idx := 0
  chk := 0x00
  mag := 0x0000
  divsel := 0
  res := { kind := .none, mag := 0, q := 0 }
  status := { busy := false, done := false, err := false }
  phase := .idle
  env := Env.reset

/-- The machine right after reset: `addr_cfg` holds `ADDR_CFG` (R27). -/
def State.reset : State := State.resetWith Config.addrCfg

end Sys2Proof.Machine
end

