-- ==== Sys2Proof/Machine/Flags.lean ====
section
/-! DEFINITION. The flags of STATUS (10_state.md R20, R24), and the one verdict the block computes: the checksum relation
(42_validate.md R90). No arithmetic flag exists (R20). -/

namespace Sys2Proof.Machine

/-- STATUS when an operation is accepted (R24). -/
def statusAccepted : Status := { busy := true, done := false, err := false }

/-- STATUS at the end of an operation: BUSY cleared, DONE set, ERR as it is (R24, R96). -/
def statusEnded (st : Status) : Status := { st with busy := false, done := true }

/-- STATUS after FAIL (60_exceptions.md R118). -/
def statusFailed : Status := { busy := false, done := true, err := true }

/-- The checksum of a response frame: `RXBUF[0] +_8 RXBUF[1] +_8 RXBUF[2]`, the carry discarded (R90, R91). -/
def checksum (rx : Vector Byte 4) : Byte := rx[0] + rx[1] + rx[2]

/-- "Valid iff checksum equals buffer[3]" (R90). -/
def frameValid (rx : Vector Byte 4) : Bool := checksum rx == rx[3]

end Sys2Proof.Machine
end

