-- ==== Sys2Proof/Decode.lean ====
section
/-! DEFINITION. The two encodings of an operation: the host's select code (30_encoding.md R64) and the command frame on the
bus (R57, R58, R65); the decoder of frames, total and rejecting by name, then the encoder. -/

namespace Sys2Proof

/-- Two bytes, the earlier one in the high bits (20_memory.md R43): `(hi << 8) | lo`. -/
def bePair (hi lo : Byte) : Half := hi ++ lo

/-- `op_sel` (R64). Every code is an operation. -/
def Instr.ofOpSel (sel : OpSel) : Instr :=
  if sel = 0 then .initMeas else if sel = 1 then .readCo2 else if sel = 2 then .readTemp else .readRh

/-- The select code of an operation (R64). -/
def Instr.opSel : Instr → OpSel
  | .initMeas => 0
  | .readCo2 => 1
  | .readTemp => 2
  | .readRh => 3

/-- The register pointer an operation sends (R42, R60). -/
def Instr.pointer : Instr → Half
  | .initMeas => 0x0060
  | .readCo2 => 0x0008
  | .readTemp => 0x0012
  | .readRh => 0x0014

/-- Why a byte string does not begin with one of the four command frames (R66: what is not in the table does not exist). -/
inductive DecodeError where
  /-- fewer bytes than the frame the opcode announces -/
  | truncated
  /-- byte 0 is neither 0x11 nor 0x22 (R59) -/
  | unknownOpcode (b : Byte)
  /-- no operation sends this pointer with this opcode (R60) -/
  | unknownPointer (p : Half)
  /-- byte 3 of an initiate frame is not the literal 0x35 (R58) -/
  | wrongData (b : Byte)
  /-- the last byte is not the frame's literal (R61) -/
  | wrongChecksum (b : Byte)
  deriving DecidableEq, Repr

/-- The rest of a CMD4 frame after its opcode 0x22 (R57): pointer high, pointer low, stored checksum literal. -/
def decodeCmd4 : List Byte → Except DecodeError (Instr × List Byte)
  | hi :: lo :: cks :: rest =>
    if bePair hi lo = 0x0008 then
      if cks = 0x2A then .ok (.readCo2, rest) else .error (.wrongChecksum cks)
    else if bePair hi lo = 0x0012 then
      if cks = 0x34 then .ok (.readTemp, rest) else .error (.wrongChecksum cks)
    else if bePair hi lo = 0x0014 then
      if cks = 0x36 then .ok (.readRh, rest) else .error (.wrongChecksum cks)
    else .error (.unknownPointer (bePair hi lo))
  | _ => .error .truncated

/-- The rest of a CMD5 frame after its opcode 0x11 (R58): pointer high, pointer low, `data`, `cks`. -/
def decodeCmd5 : List Byte → Except DecodeError (Instr × List Byte)
  | hi :: lo :: data :: cks :: rest =>
    if bePair hi lo = 0x0060 then
      if data = 0x35 then
        if cks = 0xA6 then .ok (.initMeas, rest) else .error (.wrongChecksum cks)
      else .error (.wrongData data)
    else .error (.unknownPointer (bePair hi lo))
  | _ => .error .truncated

/-- The decoder of command frames, as "a decoder on the sensor's side tells the four frames apart" (R65): by byte 0, then by
the pointer; all bits of every frame are fixed. Bytes after the frame are handed back. -/
def decode : List Byte → Except DecodeError (Instr × List Byte)
  | [] => .error .truncated
  | op :: rest =>
    if op = 0x22 then decodeCmd4 rest else if op = 0x11 then decodeCmd5 rest else .error (.unknownOpcode op)

/-- The encoder: the command frame of an operation, byte 0 first on the bus (R65). -/
def encode : Instr → List Byte
  | .initMeas => [0x11, 0x00, 0x60, 0x35, 0xA6]
  | .readCo2 => [0x22, 0x00, 0x08, 0x2A]
  | .readTemp => [0x22, 0x00, 0x12, 0x34]
  | .readRh => [0x22, 0x00, 0x14, 0x36]

/-- The `n` bytes of a number, most significant byte first: "when a frame is written as one number, byte 0 is the most
significant byte" (30_encoding.md, opening paragraph). -/
def bytesOfNumber : Nat → Nat → List Byte
  | 0, _ => []
  | n + 1, w => BitVec.ofNat 8 (w / 256 ^ n) :: bytesOfNumber n w

/-- The operation whose frame, as the number the opcode table writes, is `w` in `nbits` bits; `none` where the decoder
refuses or bytes are left over. -/
def decodeTableWord (nbits w : Nat) : Option Instr :=
  if w < 256 ^ ((nbits + 7) / 8) then
    match decode (bytesOfNumber ((nbits + 7) / 8) w) with
    | .ok (i, []) => some i
    | _ => none
  else none

/-- Direction of a transaction (R56). -/
inductive Dir where
  | write
  | read
  deriving DecidableEq, Repr

/-- ADDRBYTE, the wire form of the address the transport makes (R56): `(ADDR << 1) | dir`. -/
def addrByte (a : BusAddr) (d : Dir) : Byte :=
  a ++ (match d with
    | .write => (0 : BitVec 1)
    | .read => 1)

/-- `MemRead(ptr, 2)` (R44): the operation that reads the sensor's register space at a pointer, where there is one. -/
def memRead (ptr : Half) : Option Instr :=
  if ptr = 0x0008 then some .readCo2
  else if ptr = 0x0012 then some .readTemp
  else if ptr = 0x0014 then some .readRh
  else none

/-- `MemWrite(ptr, 1, v)` (R44): the only write is of 0x35 at 0x0060. -/
def memWrite (ptr : Half) (v : Byte) : Option Instr :=
  if ptr = 0x0060 ∧ v = 0x35 then some .initMeas else none

end Sys2Proof
end

