-- ==== Sys2Proof/Machine/Operands.lean ====
section
/-! DEFINITION. The operand forms: the operation table's row of each operation (30_encoding.md R65) and the indexed accesses
to TXBUF and RXBUF (10_state.md R13 to R15). No operation has an operand the host supplies (R107). -/

namespace Sys2Proof.Machine

/-- `TXBUF` as the accept step loads it: the frame, and 0x00 in `TXBUF[4]` for a 4-byte frame (R13). -/
def tableFrame (i : Instr) : Vector Byte 5 :=
  let f := encode i
  #v[f.getD 0 0, f.getD 1 0, f.getD 2 0, f.getD 3 0, f.getD 4 0]

/-- `TXLEN` (R65): the length of the operation's frame. -/
def tableTxLen (i : Instr) : BitVec 3 := BitVec.ofNat 3 (encode i).length

/-- `RXLEN` (R65): 2 for the initiate-measurement response, 4 for a register read. -/
def tableRxLen : Instr → BitVec 3
  | .initMeas => 2
  | .readCo2 => 4
  | .readTemp => 4
  | .readRh => 4

/-- `DIVSEL` (R65, R98): 1 selects divisor 100; loaded with 0 and never read for INIT_MEAS (R18). -/
def tableDivSel : Instr → BitVec 1
  | .initMeas => 0
  | .readCo2 => 0
  | .readTemp => 1
  | .readRh => 1

/-- The "validated" column (R65): the three reads. -/
def tableValidated : Instr → Bool
  | .initMeas => false
  | .readCo2 => true
  | .readTemp => true
  | .readRh => true

/-- IDX lies inside TXBUF. -/
def txIndexOk (s : State) : Bool := s.idx.toNat < 5

/-- `TXBUF[IDX]` (R79); `txIndexOk` guards every use. -/
def txByteAt (s : State) : Byte := (s.txbuf[s.idx.toNat]?).getD 0

/-- IDX names a byte of the response that was asked for, and of RXBUF. -/
def rxIndexOk (s : State) : Bool := s.idx.toNat < s.rxlen.toNat && s.idx.toNat < 4

/-- `RXBUF[IDX] <- b` (R82); `rxIndexOk` guards every use. -/
def storeRx (b : Byte) (s : State) : State := { s with rxbuf := s.rxbuf.setIfInBounds s.idx.toNat b }

/-- `IDX <- IDX + 1` (R15). -/
def incIdx (s : State) : State := { s with idx := s.idx + 1 }

/-- `IDX <- 0` (R15). -/
def clearIdx (s : State) : State := { s with idx := 0 }

end Sys2Proof.Machine
end

