-- ==== Sys2Proof/WellFormed.lean ====
section
/-! DEFINITION. Well-formedness: of a command frame (30_encoding.md R57 to R61), of an operation (its frame), and of an
environment's answer against the transport's contract (41_exchange.md R84). -/

namespace Sys2Proof

/-- "The opcode fixes the frame length: 0x22 means 4 bytes, 0x11 means 5 bytes" (R59); no other opcode is sent. -/
def frameLengthOk (f : List Byte) : Bool :=
  match f with
  | op :: _ => (op == 0x22 && f.length == 4) || (op == 0x11 && f.length == 5)
  | [] => false

/-- A frame's last byte is the mod-256 sum of the bytes before it (R61). -/
def frameChecksumOk (f : List Byte) : Bool :=
  match f.getLast? with
  | some c => c == f.dropLast.sum
  | none => false

/-- The pointer is one of the four that are ever sent (R42). -/
def framePointerOk (f : List Byte) : Bool :=
  match f with
  | _ :: hi :: lo :: _ =>
    bePair hi lo == 0x0008 || bePair hi lo == 0x0012 || bePair hi lo == 0x0014 || bePair hi lo == 0x0060
  | _ => false

/-- The checks on a command frame together. -/
def frameOk (f : List Byte) : Bool :=
  frameLengthOk f && frameChecksumOk f && framePointerOk f

/-- An operation is well formed when the frame it sends is. Operations have no operands, so nothing else can be wrong. -/
def Instr.wellFormed (i : Instr) : Bool := frameOk (encode i)

/-- The transport's contract "makes up to expectedCount bytes available" (R84), for a read that asks for `n` bytes. -/
def Answer.withinContract (n : Nat) : Answer → Bool
  | .bytes avail => avail.length ≤ n
  | .never => true

end Sys2Proof
end

