-- ==== Sys2Proof/Machine/Ops.lean ====
section
/-! DEFINITION. The named operations over registers and environment that every phase is written with: performing an interface
action, the environment's answer to a read, accepting and ending an operation, and the FAIL step (the block's only exception). -/

namespace Sys2Proof.Machine

/-- PHASE <- p (R21). -/
def setPhase (p : Phase) (s : State) : State := { s with phase := p }

/-- A change of the environment alone. -/
def mapEnv (f : Env → Env) (s : State) : State := { s with env := f s.env }

/-- What an action does to the environment's state (10_state.md R25, the last column), apart from being performed. -/
def actionEffect (a : Action) (e : Env) : Env :=
  match a with
  | .engineDisable => { e with engineOn := false }
  | .sdaLow => { e with lineLow := true }
  | .sdaHigh => { e with lineLow := false }
  | .engineEnable => { e with engineOn := true }
  | .beginRead _ _ => { e with readPending := true }
  | .readByte _ => { e with rxQueue := e.rxQueue.tail }
  | .delay _ => e
  | .beginWrite _ => e
  | .writeByte _ => e
  | .endWrite => e
  | .bytesAvailable _ => e

/-- The action is put at the end of the trace (00_scope.md R9; 20_memory.md R50: a total order). -/
def record (a : Action) (e : Env) : Env := { e with trace := e.trace ++ [a] }

/-- The block performs one action (R9). It looks at nothing a write transaction returns (41_exchange.md R85). -/
def perform (a : Action) (s : State) : State := mapEnv (fun e => record a (actionEffect a e)) s

/-- A free answer, cut to the transport's contract (41_exchange.md R84) for a read of `n` bytes, and made to return where the
parameter `TRANSPORT_READ_RETURNS` says that the read always does (R87). -/
def freeAnswerFor (d n : Nat) : Answer :=
  match Config.freeAnswer d with
  | .bytes avail => .bytes (avail.take n)
  | .never => if Config.transportReadReturns then .bytes ((Config.freeBytes d).take n) else .never

/-- The environment's answer to the read that is open or about to be opened (20_memory.md R45): the next listed answer, or
else a free value. -/
def readAnswer (s : State) : Answer :=
  match s.env.answers with
  | a :: _ => a
  | [] => freeAnswerFor s.env.draws s.rxlen.toNat

/-- The next listed answer offers more bytes than are asked for (41_exchange.md R84). -/
def overDelivers (s : State) : Bool :=
  match s.env.answers with
  | a :: _ => !a.withinContract s.rxlen.toNat
  | [] => false

/-- The answer has been given: the next read gets the next one. -/
def consumeAnswer (e : Env) : Env :=
  match e.answers with
  | _ :: rest => { e with answers := rest }
  | [] => { e with draws := e.draws + 1 }

/-- `BeginRead` has returned: the receive queue holds the bytes of the answer (41_exchange.md R81). -/
def deliver (avail : List Byte) (e : Env) : Env :=
  { consumeAnswer e with rxQueue := avail, readPending := false }

/-- The accept step (10_state.md R24): the operation's table row is loaded, the response buffer cleared, RES emptied, STATUS
set to (BUSY 1, DONE 0, ERR 0). -/
def accept (i : Instr) (s : State) : State :=
  { s with
    opsel := i.opSel
    txbuf := tableFrame i
    txlen := tableTxLen i
    rxlen := tableRxLen i
    divsel := tableDivSel i
    rxbuf := #v[0x00, 0x00, 0x00, 0x00]
    res := { kind := .none, mag := 0, q := 0 }
    status := statusAccepted
    phase := .wakeDisable }

/-- The end of an operation (R24): "The step that sets PHASE <- IDLE also sets STATUS.BUSY <- 0 and STATUS.DONE <- 1". -/
def endOperation (s : State) : State := { s with status := statusEnded s.status, phase := .idle }

/-- Taking the block's one exception, ChecksumMismatch: the FAIL step (60_exceptions.md R118, R125). It saves nothing and goes
nowhere but IDLE. There is no return from it (R126): the next accept clears what it wrote. -/
def raiseChecksumMismatch (s : State) : State :=
  { s with
    res := { kind := .error, mag := 0, q := 0 }
    status := statusFailed
    phase := .idle }

/-- The host's next start, taken off the port: the operation its `op_sel` names (30_encoding.md R64) and the state after. The
block fetches nothing else (20_memory.md R53). -/
def nextStart (s : State) : Option (Instr × State) :=
  match s.env.starts with
  | sel :: rest => some (Instr.ofOpSel sel, mapEnv (fun e => { e with starts := rest }) s)
  | [] => none

/-- The host raises `op_start` with this `op_sel` next, and the block is idle so that it can be accepted (R24). -/
def placeStart (sel : OpSel) (s : State) : State :=
  { s with
    status := { s.status with busy := false }
    phase := .idle
    env := { s.env with starts := sel :: s.env.starts } }

end Sys2Proof.Machine
end

