-- ==== Sys2Proof/Machine/Convert.lean ====
section
/-! DEFINITION. DECODE, the ValueDecoder (43_decode.md R96 to R106): phase 15 of 10_state.md R21; the real number RES stands
for (10_state.md R19) and its floating-point view (R100). -/

namespace Sys2Proof.Machine

/-- `MAG = {RXBUF[1], RXBUF[2]}`, zero-extended, never sign-extended (R69, R96, R97). -/
def magnitude (rx : Vector Byte 4) : Half := bePair rx[1] rx[2]

/-- DECODE: MAG and RES are written and the operation ends; STATUS.ERR is left as it is (R96). -/
def rowDecode (s : State) : State :=
  endOperation { s with
    mag := magnitude s.rxbuf
    res := { kind := .value, mag := magnitude s.rxbuf, q := s.divsel } }

/-- The scale divisor a select bit stands for (R98): only 1 and 100 exist. -/
def divisor (q : BitVec 1) : Nat := if q = 0 then 1 else 100

/-- `Real(RES)`, exact (R19, R97). It is undefined for NONE: there is no value. -/
def realOf (r : Result) : Option Rat :=
  match r.kind with
  | .none => none
  | .value => some ((r.mag.toNat : Rat) / (divisor r.q : Rat))
  | .error => some (-1)

/-- `num / den` rounded to an integer, to nearest, ties to even. -/
def roundHalfEven (num den : Nat) : Nat :=
  let q := num / den
  let r := num % den
  if 2 * r < den then q else if den < 2 * r then q + 1 else if q % 2 = 0 then q else q + 1

/-- The width of a format. -/
def floatWidth (f : FloatFmt) : Nat := 1 + f.expBits + f.fracBits

/-- The exponent bias of a format. -/
def floatBias (f : FloatFmt) : Nat := 2 ^ (f.expBits - 1) - 1

/-- The bits, without sign, of the format's value nearest to `num / den`, ties to the even significand (`RNE_fmt`, R100). For
the numbers that occur (0, and 1/100 to 65535) the result is zero or normal. A significand that rounds up to the next power
of two carries into the exponent field. -/
def floatMagnitude (f : FloatFmt) (num den : Nat) : Nat :=
  if num = 0 then 0
  else if den ≤ num then
    let e := (num / den).log2
    (floatBias f + e) * 2 ^ f.fracBits
      + (roundHalfEven (num * 2 ^ f.fracBits) (den * 2 ^ e) - 2 ^ f.fracBits)
  else
    let e := ((den - 1) / num).log2 + 1
    (floatBias f - e) * 2 ^ f.fracBits
      + (roundHalfEven (num * 2 ^ (f.fracBits + e)) den - 2 ^ f.fracBits)

/-- The floating-point view `F(RES)` in a format (R100, R101): defined for VALUE and ERROR. -/
def floatOf (f : FloatFmt) (r : Result) : Option (BitVec (floatWidth f)) :=
  match r.kind with
  | .none => none
  | .value => some (BitVec.ofNat _ (floatMagnitude f r.mag.toNat (divisor r.q)))
  | .error => some (BitVec.ofNat _ (2 ^ (f.expBits + f.fracBits) + floatMagnitude f 1 1))

/-- The number a finite bit pattern of a format stands for; `none` for infinities and NaNs. -/
def floatValue (f : FloatFmt) (b : BitVec (floatWidth f)) : Option Rat :=
  let frac := b.toNat % 2 ^ f.fracBits
  let ex := b.toNat / 2 ^ f.fracBits % 2 ^ f.expBits
  let sign : Rat := if b.toNat / 2 ^ (f.expBits + f.fracBits) = 0 then 1 else -1
  if ex = 2 ^ f.expBits - 1 then none
  else if ex = 0 then some (sign * frac * 2 / 2 ^ (floatBias f + f.fracBits))
  else some (sign * (2 ^ f.fracBits + frac) * 2 ^ ex / 2 ^ (floatBias f + f.fracBits))

end Sys2Proof.Machine
end

