-- ==== Sys2Proof/Machine/Wake.lean ====
section
/-! DEFINITION. WAKE, the BusWaker (40_wake.md R70): phases 1 to 6 of 10_state.md R21, and their composition. -/

namespace Sys2Proof.Machine

/-- WAKE_DISABLE: `EngineDisable`. -/
def rowWakeDisable (s : State) : State := setPhase .wakeLow (perform .engineDisable s)

/-- WAKE_LOW: `SdaLow`. -/
def rowWakeLow (s : State) : State := setPhase .wakeHold (perform .sdaLow s)

/-- WAKE_HOLD: `Delay(T_WAKE_LOW)`. -/
def rowWakeHold (s : State) : State := setPhase .wakeHigh (perform (.delay Config.tWakeLow) s)

/-- WAKE_HIGH: `SdaHigh`. -/
def rowWakeHigh (s : State) : State := setPhase .wakeEnable (perform .sdaHigh s)

/-- WAKE_ENABLE: `EngineEnable`. -/
def rowWakeEnable (s : State) : State := setPhase .wakeSettle (perform .engineEnable s)

/-- WAKE_SETTLE: `Delay(T_WAKE_SETTLE)`. -/
def rowWakeSettle (s : State) : State := setPhase .txBegin (perform (.delay Config.tWakeSettle) s)

/-- WAKE (R70): six actions in this order, no condition (R71), no failure (R72). -/
def wake (s : State) : State :=
  rowWakeSettle (rowWakeEnable (rowWakeHigh (rowWakeHold (rowWakeLow (rowWakeDisable s)))))

end Sys2Proof.Machine
end

