-- ==== Sys2Proof/Machine/Exchange.lean ====
section
/-! DEFINITION. EXCHANGE, the CommandResponder (41_exchange.md R77 to R89): phases 7 to 13 of 10_state.md R21, and their
composition. -/

namespace Sys2Proof.Machine

/-- TX_BEGIN: `BeginWrite(ADDR)`; `IDX <- 0` (R79). -/
def rowTxBegin (s : State) : State := setPhase .txByte (clearIdx (perform (.beginWrite s.addr) s))

/-- The loop test of TX_BYTE (R21, R79): `IDX < TXLEN`, after the increment. -/
def phaseAfterByte (idx txlen : BitVec 3) : Phase := if idx < txlen then .txByte else .txEnd

/-- TX_BYTE: `WriteByte(TXBUF[IDX])`; `IDX <- IDX + 1`; again while `IDX < TXLEN` (R79, R21). -/
def rowTxByte (s : State) : State :=
  let t := incIdx (perform (.writeByte (txByteAt s)) s)
  setPhase (phaseAfterByte t.idx t.txlen) t

/-- TX_END: `EndWrite` (R79). -/
def rowTxEnd (s : State) : State := setPhase .cmdSettle (perform .endWrite s)

/-- CMD_SETTLE: `Delay(T_CMD_SETTLE)` (R80). -/
def rowCmdSettle (s : State) : State := setPhase .rxBegin (perform (.delay Config.tCmdSettle) s)

/-- `BeginRead(ADDR, RXLEN)` is issued, once (R81). -/
def issueRead (s : State) : State :=
  if s.env.readPending then s else perform (.beginRead s.addr s.rxlen.toNat) s

/-- RX_BEGIN: the read is opened; the phase is left only when the transport returns, then `IDX <- 0` (R81, R87). -/
def openRead (s : State) : State :=
  match readAnswer s with
  | .never => issueRead s
  | .bytes avail => setPhase .rxPoll (clearIdx (mapEnv (deliver avail) (issueRead s)))

/-- RX_POLL: `BytesAvailable -> c`; a byte is taken if `c > 0`, else a read operation goes to CHECK and INIT_MEAS ends (R82,
R21; INIT_MEAS is not validated, 42_validate.md R94). -/
def rowRxPoll (s : State) : State :=
  let t := perform (.bytesAvailable s.env.rxQueue.length) s
  if 0 < s.env.rxQueue.length then setPhase .rxByte t
  else if s.opsel = 0 then endOperation t
  else setPhase .check t

/-- RX_BYTE: `ReadByte -> b`; `RXBUF[IDX] <- b`; `IDX <- IDX + 1` (R82), for a queue that is not empty. -/
def rowRxByte (s : State) : State :=
  match s.env.rxQueue with
  | b :: _ => setPhase .rxPoll (incIdx (storeRx b (perform (.readByte b) s)))
  | [] => s

/-- The write loop of R79, `n` bytes. -/
def sendBytes : Nat → State → State
  | 0, s => s
  | n + 1, s => sendBytes n (rowTxByte s)

/-- Everything before the read is opened: WAKE (R78), the write transaction (R79), the settle delay (R80). -/
def command (s : State) : State :=
  let t := wake s
  rowCmdSettle (rowTxEnd (sendBytes t.txlen.toNat (rowTxBegin t)))

/-- The drain loop of R82 over `n` queued bytes: ask and take, `n` times, and ask once more. -/
def drain : Nat → State → State
  | 0, s => rowRxPoll s
  | n + 1, s => drain n (rowRxByte (rowRxPoll s))

/-- The read transaction and what follows it. A read that never returns leaves the block in RX_BEGIN (R87). -/
def respond (finish : State → State) (s : State) : State :=
  let t := openRead s
  if t.env.readPending then t else finish (drain t.env.rxQueue.length t)

end Sys2Proof.Machine
end

