-- ==== Sys2Proof/Machine/Validate.lean ====
section
/-! DEFINITION. VALIDATE, the FrameValidator (42_validate.md R90 to R95): phase 14 of 10_state.md R21. -/

namespace Sys2Proof.Machine

/-- CHECK: `CHK <- RXBUF[0] +_8 RXBUF[1] +_8 RXBUF[2]`, then DECODE if it equals `RXBUF[3]`, else FAIL (R90). -/
def rowCheck (s : State) : State :=
  { s with chk := checksum s.rxbuf, phase := if frameValid s.rxbuf then .decode else .fail }

/-- FAIL: the exception is taken (60_exceptions.md R118). -/
def rowFail (s : State) : State := raiseChecksumMismatch s

end Sys2Proof.Machine
end

