-- ==== Sys2Proof/Machine/Operations.lean ====
section
/-! DEFINITION. The four operations (44_operations.md R107 to R111), each one definition over the micro-operations. -/

namespace Sys2Proof.Machine

/-- VALIDATE, then DECODE or the error result (R107, R112): what the three reads do with their frame. -/
def validateAndDecode (s : State) : State :=
  let t := rowCheck s
  if frameValid s.rxbuf then rowDecode t else rowFail t

/-- The common shape (R107): accept (only while `STATUS.BUSY` is 0, 10_state.md R24), EXCHANGE, then `finish`. -/
def runOperation (i : Instr) (finish : State → State) (s : State) : Host.Outcome State Fault Refusal :=
  if s.status.busy then .refused .startWhileBusy
  else if overDelivers (command (accept i s)) then .refused .overDelivery
  else .next (respond finish (command (accept i s)))

/-- INIT_MEAS (R108): the exchange alone; the drain loop's last poll ends the operation, RES stays NONE. -/
def execInitMeas (s : State) : Host.Outcome State Fault Refusal := runOperation .initMeas id s

/-- READ_CO2 (R109): scale divisor 1. -/
def execReadCo2 (s : State) : Host.Outcome State Fault Refusal := runOperation .readCo2 validateAndDecode s

/-- READ_TEMP (R110): scale divisor 100. -/
def execReadTemp (s : State) : Host.Outcome State Fault Refusal := runOperation .readTemp validateAndDecode s

/-- READ_RH (R111): scale divisor 100. -/
def execReadRh (s : State) : Host.Outcome State Fault Refusal := runOperation .readRh validateAndDecode s

end Sys2Proof.Machine
end

