-- ==== Sys2Proof/Machine/Dispatch.lean ====
section
/-! DEFINITION. exec: one arm per operation (44_operations.md R108 to R111). -/

namespace Sys2Proof.Machine

def exec (i : Instr) (s : State) : Host.Outcome State Fault Refusal :=
  match i with
  | .initMeas => Sys2Proof.Machine.execInitMeas s
  | .readCo2 => Sys2Proof.Machine.execReadCo2 s
  | .readTemp => Sys2Proof.Machine.execReadTemp s
  | .readRh => Sys2Proof.Machine.execReadRh s

end Sys2Proof.Machine
end

