-- ==== Sys2Proof/Machine/Sequencer.lean ====
section
/-! DEFINITION. The sequencer: the rows of the phase table (10_state.md R21, R22), one of which is a step of the machine. -/

namespace Sys2Proof.Machine

/-- IDLE: no action; an `op_start` is accepted while `STATUS.BUSY` is 0 (R24); without one the block does nothing (R137). -/
def rowIdle (s : State) : Host.Outcome State Fault Refusal :=
  match nextStart s with
  | none => .next s
  | some (i, t) => if s.status.busy then .refused .startWhileBusy else .next (accept i t)

/-- TX_BYTE, while IDX lies inside TXBUF. -/
def stepTxByte (s : State) : Host.Outcome State Fault Refusal :=
  if txIndexOk s then .next (rowTxByte s) else .refused .frameIndex

/-- RX_BEGIN, for a transport that keeps to its contract (41_exchange.md R84). -/
def stepRxBegin (s : State) : Host.Outcome State Fault Refusal :=
  if overDelivers s then .refused .overDelivery else .next (openRead s)

/-- RX_BYTE, for a transport that has a byte and offers no more than were asked for (R84). -/
def stepRxByte (s : State) : Host.Outcome State Fault Refusal :=
  match s.env.rxQueue with
  | [] => .refused .noByteToRead
  | _ :: _ => if rxIndexOk s then .next (rowRxByte s) else .refused .overDelivery

/-- One row of the phase table (R21, R22). -/
def phaseStep (s : State) : Host.Outcome State Fault Refusal :=
  match s.phase with
  | .idle => rowIdle s
  | .wakeDisable => .next (rowWakeDisable s)
  | .wakeLow => .next (rowWakeLow s)
  | .wakeHold => .next (rowWakeHold s)
  | .wakeHigh => .next (rowWakeHigh s)
  | .wakeEnable => .next (rowWakeEnable s)
  | .wakeSettle => .next (rowWakeSettle s)
  | .txBegin => .next (rowTxBegin s)
  | .txByte => stepTxByte s
  | .txEnd => .next (rowTxEnd s)
  | .cmdSettle => .next (rowCmdSettle s)
  | .rxBegin => stepRxBegin s
  | .rxPoll => .next (rowRxPoll s)
  | .rxByte => stepRxByte s
  | .check => .next (rowCheck s)
  | .decode => .next (rowDecode s)
  | .fail => .next (rowFail s)

/-- `n` rows of the phase table, stopping at the first refusal. -/
def phaseRun : Nat → State → Host.Outcome State Fault Refusal
  | 0, s => .next s
  | n + 1, s =>
    match phaseStep s with
    | .next t => phaseRun n t
    | .fault r => .fault r
    | .refused r => .refused r

end Sys2Proof.Machine
end

