-- ==== Sys2Proof/Machine/Step.lean ====
section
/-! DEFINITION. The step of the machine: "A step of the block is one row of the table" (10_state.md R22). In IDLE the row accepts
the operation the host starts, or, with no start, does nothing (R24, R137). `exec` is the same operation as one function
(44_operations.md R107): what the rows from that start on come to. -/

namespace Sys2Proof.Machine

def step (s : State) : Host.Outcome State Fault Refusal := phaseStep s

/-- The state in which the host starts, next, the operation whose frame the opcode table numbers `w`: the very next step accepts
it. A word that is no frame of the table names no operation and cannot be put on the port (30_encoding.md R66): the state is
left as it is. -/
def State.withFetchWord (s : State) (nbits w : Nat) : State :=
  match decodeTableWord nbits w with
  | some i => placeStart i.opSel s
  | none => s

end Sys2Proof.Machine
end

