-- ==== Sys2Proof/Machine/Ports.lean ====
section
/-! DEFINITION. The host's output ports (10_state.md R24). They show STATUS and RES and nothing else (60_exceptions.md R132). -/

namespace Sys2Proof.Machine

/-- The output ports of R24. -/
structure HostPorts where
  busy : Bool
  done : Bool
  err : Bool
  resKind : ResKind
  resMag : Half
  resQ : BitVec 1
  /-- `res_f`, `F(RES)` in `FLOAT_FMT`; no value while `RES.kind` is NONE -/
  resF : Option (BitVec (floatWidth Config.floatFmt))
  deriving DecidableEq, Repr

/-- What the ports show in a state. -/
def hostPorts (s : State) : HostPorts where
  busy := s.status.busy
  done := s.status.done
  err := s.status.err
  resKind := s.res.kind
  resMag := s.res.mag
  resQ := s.res.q
  resF := floatOf Config.floatFmt s.res

end Sys2Proof.Machine
end

