-- ==== Sys2Proof/Safety.lean ====
section
/-! DEFINITION. What counts as a safe run, in the terms the claims use: the invariant of the registers and of the environment,
the trace an operation performs (41_exchange.md R88), and the order of actions every trace keeps (20_memory.md R50, R51;
95_test_vectors.md section 5). -/

namespace Sys2Proof.Machine

/-- The block can accept a start (10_state.md R24) and no read is open on its transport. -/
def State.ready (s : State) : Prop := s.status.busy = false ∧ s.env.readPending = false

/-- The environment's answer to the next read of `n` bytes is `a` (20_memory.md R45): listed and within the contract
(41_exchange.md R84), or, with nothing listed, the free value. -/
def nextAnswer (n : Nat) (a : Answer) (s : State) : Prop :=
  (∃ rest, s.env.answers = a :: rest ∧ a.withinContract n = true) ∨
  (s.env.answers = [] ∧ freeAnswerFor s.env.draws n = a)

/-- `pad4` of 44_operations.md R112: the bytes that arrived, then 0x00. -/
def pad4 (avail : List Byte) : Vector Byte 4 :=
  #v[avail.getD 0 0, avail.getD 1 0, avail.getD 2 0, avail.getD 3 0]

/-- The actions before a read is opened (R88): the wake, the write transaction, the settle delay. -/
def commandTrace (a : BusAddr) (frame : List Byte) : List Action :=
  [.engineDisable, .sdaLow, .delay Config.tWakeLow, .sdaHigh, .engineEnable, .delay Config.tWakeSettle, .beginWrite a]
    ++ frame.map .writeByte ++ [.endWrite, .delay 20]

/-- The drain loop's actions (R82, R88): a count before every byte, and a last count 0. -/
def pollTrace : List Byte → List Action
  | [] => [.bytesAvailable 0]
  | b :: bs => .bytesAvailable (bs.length + 1) :: .readByte b :: pollTrace bs

/-- The trace of one operation (R88). -/
def exchangeTrace (a : BusAddr) (frame : List Byte) (n : Nat) (avail : List Byte) : List Action :=
  commandTrace a frame ++ .beginRead a n :: pollTrace avail

/-- What a read leaves, in terms of the bytes that arrived, zero filled (R109 to R112): `rx3 = rx0 +_8 rx1 +_8 rx2` decides. -/
def readResult (s : State) (sel : OpSel) (tx : Vector Byte 5) (q : BitVec 1) (avail : List Byte) (rest : List Answer) : State :=
  let rx0 := avail.getD 0 0
  let rx1 := avail.getD 1 0
  let rx2 := avail.getD 2 0
  let rx3 := avail.getD 3 0
  { addr := s.addr
    opsel := sel
    txbuf := tx
    txlen := 4
    rxbuf := #v[rx0, rx1, rx2, rx3]
    rxlen := 4
    idx := BitVec.ofNat 3 avail.length
    chk := rx0 + rx1 + rx2
    mag := if rx0 + rx1 + rx2 = rx3 then rx1 ++ rx2 else s.mag
    divsel := q
    res := if rx0 + rx1 + rx2 = rx3 then { kind := .value, mag := rx1 ++ rx2, q := q } else { kind := .error, mag := 0, q := 0 }
    status := { busy := false, done := true, err := decide (rx0 + rx1 + rx2 ≠ rx3) }
    phase := .idle
    env :=
      { engineOn := true
        lineLow := false
        rxQueue := []
        readPending := false
        trace := s.env.trace ++ exchangeTrace s.addr [tx[0], tx[1], tx[2], tx[3]] 4 avail
        answers := rest
        draws := s.env.draws
        starts := s.env.starts } }

/-- The sequencer rows from accept to the end of an operation that gets `k` bytes, accept itself left out: one per action, and CHECK
and DECODE or FAIL for a read (95_test_vectors.md 2.5, "Steps of the sequencer"). -/
def rowCount (i : Instr) (k : Nat) : Nat :=
  11 + (encode i).length + 2 * k + (if tableValidated i then 2 else 0)

/-- The phases in which a read is being drained. -/
def Phase.draining : Phase → Bool
  | .rxPoll => true
  | .rxByte => true
  | _ => false

/-- The phases after the response has been read (R21). -/
def Phase.judging : Phase → Bool
  | .check => true
  | .decode => true
  | .fail => true
  | _ => false

/-- The phases in which the transport's engine is switched off (40_wake.md R73). -/
def Phase.engineOff : Phase → Bool
  | .wakeLow => true
  | .wakeHold => true
  | .wakeHigh => true
  | .wakeEnable => true
  | _ => false

/-- The phases in which the pin holds the data line low (40_wake.md R70). -/
def Phase.lineHeld : Phase → Bool
  | .wakeHold => true
  | .wakeHigh => true
  | _ => false

/-- The phases after the command has been written and before the response is complete or judged, where RXBUF holds only zeros. -/
def Phase.beforeRead : Phase → Bool
  | .idle => false
  | .rxPoll => false
  | .rxByte => false
  | .check => false
  | .decode => false
  | .fail => false
  | _ => true

/-- The invariant of every state a run reaches. -/
structure State.Inv (s : State) : Prop where
  /-- BUSY is 1 exactly while an operation runs (R20) -/
  busy_iff : s.status.busy = true ↔ s.phase ≠ .idle
  /-- DONE is 0 while an operation runs (R20) -/
  done_idle : s.status.done = true → s.status.busy = false
  /-- "ERR = 1 exactly when RES.kind = ERROR" (R20) -/
  err_iff : s.status.err = true ↔ s.res.kind = .error
  /-- RES is NONE while an operation runs (R19, R123) -/
  busy_none : s.status.busy = true → s.res.kind = .none
  /-- mag and q are 0 unless RES is a value (R19) -/
  res_zero : s.res.kind ≠ .value → s.res.mag = 0 ∧ s.res.q = 0
  /-- INIT_MEAS leaves no result (R108) -/
  init_none : s.opsel = 0 → s.res.kind = .none
  /-- a value comes from a frame that satisfied the checksum relation (R95), and is that frame's (R96) -/
  value_valid : s.res.kind = .value →
    frameValid s.rxbuf = true ∧ s.res.mag = magnitude s.rxbuf ∧ s.res.q = s.divsel
  /-- DECODE is reached with a valid frame only (R95) -/
  decode_valid : s.phase = .decode → frameValid s.rxbuf = true
  /-- FAIL is reached with an invalid frame only (R118) -/
  fail_invalid : s.phase = .fail → frameValid s.rxbuf = false
  /-- CHK holds the frame's checksum once CHECK is done (R16) -/
  chk_sum : s.phase = .decode ∨ s.phase = .fail → s.chk = checksum s.rxbuf
  /-- only the reads are validated (R94) -/
  judged_read : s.phase.judging = true → s.opsel ≠ 0
  /-- TXLEN is 4 or 5 (R13) -/
  txlen_range : s.txlen = 4 ∨ s.txlen = 5
  /-- RXLEN is 2 or 4 (R14) -/
  rxlen_range : s.rxlen = 2 ∨ s.rxlen = 4
  /-- while an operation runs, and until the next is accepted, the frame registers hold its table row (R13, R53) -/
  row_loaded : s.status.busy = true ∨ s.status.done = true →
    s.txbuf = tableFrame (Instr.ofOpSel s.opsel) ∧ s.txlen = tableTxLen (Instr.ofOpSel s.opsel) ∧
    s.rxlen = tableRxLen (Instr.ofOpSel s.opsel) ∧ s.divsel = tableDivSel (Instr.ofOpSel s.opsel)
  /-- IDX in the write loop (R15) -/
  idx_writing : s.phase = .txByte → s.idx.toNat < s.txlen.toNat
  /-- IDX and the receive queue in the drain loop (R15, R84) -/
  idx_draining : s.phase.draining = true → s.idx.toNat + s.env.rxQueue.length ≤ s.rxlen.toNat
  /-- a byte is taken only when there is one (R82) -/
  byte_there : s.phase = .rxByte → s.env.rxQueue ≠ []
  /-- RXBUF is zero until the response arrives (R14) -/
  zero_before : s.phase.beforeRead = true → s.rxbuf = #v[0, 0, 0, 0]
  /-- RXBUF is zero beyond the bytes received (R83) -/
  zero_beyond : s.phase.draining = true → ∀ j (h : j < 4), s.idx.toNat ≤ j → s.rxbuf[j] = 0
  /-- "For RXLEN = 2 the bytes RXBUF[2], RXBUF[3] stay 0x00" (R14) -/
  short_zero : s.rxlen = 2 → s.rxbuf[2] = 0 ∧ s.rxbuf[3] = 0
  /-- the engine is off in the wake window and nowhere else (R73) -/
  engine_window : s.env.engineOn = !s.phase.engineOff
  /-- the line is held low in the wake pulse and nowhere else (R73) -/
  line_window : s.env.lineLow = s.phase.lineHeld
  /-- a read is open only in RX_BEGIN (R87) -/
  pending_phase : s.env.readPending = true → s.phase = .rxBegin

/-- Where a trace stands in the order of actions of an operation. -/
inductive BusPos where
  | quiet
  | engineOff
  | held
  | heldLong
  | released
  | enabled
  | awake
  | writing (sent : List Byte)
  | written (i : Instr)
  | settled (i : Instr)
  | asked (n : Nat)
  | offered (n : Nat)
  | counting (n : Nat)
  deriving DecidableEq, Repr

/-- The next place, for a block at address `a`; `none` where the action must not come next: R70 and R71 (wake first, once), R79
(exactly the frame's bytes), R80 (the settle delay), R81 (same address, the operation's length), R82 and R84 (a non-zero count
before every byte, counting down), R86 (nothing after the last count). -/
def busNext (a : BusAddr) (p : BusPos) (x : Action) : Option BusPos :=
  match p, x with
  | .quiet, .engineDisable => some .engineOff
  | .engineOff, .sdaLow => some .held
  | .held, .delay d => if d = Config.tWakeLow then some .heldLong else none
  | .heldLong, .sdaHigh => some .released
  | .released, .engineEnable => some .enabled
  | .enabled, .delay d => if d = Config.tWakeSettle then some .awake else none
  | .awake, .beginWrite b => if b = a then some (.writing []) else none
  | .writing sent, .writeByte b => some (.writing (sent ++ [b]))
  | .writing sent, .endWrite =>
    match decode sent with
    | .ok (i, []) => some (.written i)
    | _ => none
  | .written i, .delay d => if d = 20 then some (.settled i) else none
  | .settled i, .beginRead b n => if b = a ∧ n = (tableRxLen i).toNat then some (.asked n) else none
  | .asked n, .bytesAvailable c =>
    if c = 0 then some .quiet else if c ≤ n then some (.offered c) else none
  | .offered c, .readByte _ => some (.counting (c - 1))
  | .counting n, .bytesAvailable c =>
    if c = n then (if c = 0 then some .quiet else some (.offered c)) else none
  | _, _ => none

/-- Where a whole trace leads. -/
def busRun (a : BusAddr) : BusPos → List Action → Option BusPos
  | p, [] => some p
  | p, x :: xs =>
    match busNext a p x with
    | some q => busRun a q xs
    | none => none

/-- Where the trace stands in each phase. -/
def busPosOf (s : State) : BusPos :=
  match s.phase with
  | .idle => .quiet
  | .wakeDisable => .quiet
  | .wakeLow => .engineOff
  | .wakeHold => .held
  | .wakeHigh => .heldLong
  | .wakeEnable => .released
  | .wakeSettle => .enabled
  | .txBegin => .awake
  | .txByte => .writing ((encode (Instr.ofOpSel s.opsel)).take s.idx.toNat)
  | .txEnd => .writing (encode (Instr.ofOpSel s.opsel))
  | .cmdSettle => .written (Instr.ofOpSel s.opsel)
  | .rxBegin => if s.env.readPending then .asked s.rxlen.toNat else .settled (Instr.ofOpSel s.opsel)
  | .rxPoll => if s.idx = 0 then .asked s.rxlen.toNat else .counting s.env.rxQueue.length
  | .rxByte => .offered s.env.rxQueue.length
  | .check => .quiet
  | .decode => .quiet
  | .fail => .quiet

/-- The trace keeps the order of actions and stands where the phase says. -/
def State.traceOk (s : State) : Prop := busRun s.addr .quiet s.env.trace = some (busPosOf s)

end Sys2Proof.Machine
end

