-- ==== Sys2Proof/Certificates/Slice0/Obligations.lean ====
section
/-! DEFINITION. The statements for the provers. Each docstring names the rules of spec/ it formalises. -/

open Sys2Proof Sys2Proof.Machine

/-! ### Reset -/

/-- R27, the table: the value of every register after a reset that samples `a`; the machine's own reset samples ADDR_CFG.
The environment's fields beside it are the model's choice (log 8) and are not stated here. -/
def Obligations.ResetRegisterValues : Prop :=
  (∀ (a : BusAddr) (s : State), s = State.resetWith a →
    s.addr = a ∧ s.opsel = 0 ∧ s.txbuf = #v[0x00, 0x00, 0x00, 0x00, 0x00] ∧ s.txlen = 4 ∧
    s.rxbuf = #v[0x00, 0x00, 0x00, 0x00] ∧ s.rxlen = 4 ∧ s.idx = 0 ∧ s.chk = 0x00 ∧ s.mag = 0x0000 ∧ s.divsel = 0 ∧
    s.res = Result.mk .none 0 0 ∧ s.status = Status.mk false false false ∧ s.phase = .idle) ∧
  State.reset = State.resetWith Config.addrCfg

/-- The invariant holds after reset, whatever address is sampled. It rests also on the environment's reset values (log 8). -/
def Obligations.ResetMeetsInvariant : Prop :=
  ∀ a : BusAddr, (State.resetWith a).Inv

/-- The empty trace stands where IDLE says (95_test_vectors.md V-R1). It rests on the environment's reset values (log 8). -/
def Obligations.ResetTraceInOrder : Prop :=
  ∀ a : BusAddr, (State.resetWith a).traceOk

/-! ### Invariants that every step keeps -/

/-- The register and environment invariant (R13 to R15, R19, R20, R73, R83, R87, R95), kept by every step from every state that
has it, between operations and inside one. -/
def Obligations.StepKeepsInvariant : Prop :=
  ∀ s t : State, s.Inv → step s = .next t → t.Inv

/-- The order of actions (R50, R51, R70, R71, R79, R80, R81, R82, R86; 95_test_vectors.md V-N1, V-N2, V-N7, V-N9, V-N10): a trace
that keeps it goes on keeping it, step after step. -/
def Obligations.StepKeepsActionOrder : Prop :=
  ∀ s t : State, s.Inv → s.traceOk → step s = .next t → t.traceOk

/-- R11: "no operation, no host port and no environment event writes it afterwards". -/
def Obligations.AddressNeverChanges : Prop :=
  ∀ s t : State, step s = .next t → t.addr = s.addr

/-- The trace only grows (R50): a step never takes an action back. -/
def Obligations.TraceOnlyGrows : Prop :=
  ∀ s t : State, step s = .next t → ∃ xs, t.env.trace = s.env.trace ++ xs

/-! ### The step -/

/-- A start is run: from IDLE with `sel` on the port the first step is the accept step, and the steps from there on come, in at
most 26, to exactly what `exec` of the operation of `sel` gives, next state or refusal (R22, R24, R107). That the host's starts
are a list in State is the model's choice (log 2). `phaseRun` is the run of the machine (RunsAreRows). -/
def Obligations.StepRunsTheStartedOperation : Prop :=
  ∀ (s s₀ : State) (sel : OpSel) (rest : List OpSel), s.phase = .idle → s.env.starts = sel :: rest →
    s₀ = { s with env := { s.env with starts := rest } } →
    (s.status.busy = false → step s = .next (accept (Instr.ofOpSel sel) s₀)) ∧
    (∀ t, exec (Instr.ofOpSel sel) s₀ = .next t → ∃ n, n ≤ 26 ∧ phaseRun n s = .next t) ∧
    (∀ r, exec (Instr.ofOpSel sel) s₀ = .refused r → ∃ n, n ≤ 26 ∧ phaseRun n s = .refused r)

/-- A table word placed by `withFetchWord` is the operation the very next step accepts, on the state made idle, and the steps
from there on come to what `exec` of it gives (log 9). -/
def Obligations.StepRunsThePlacedWord : Prop :=
  ∀ (s s₀ : State) (nbits w : Nat) (i : Instr), decodeTableWord nbits w = some i →
    s₀ = { s with status := { s.status with busy := false }, phase := .idle } →
    step (s.withFetchWord nbits w) = .next (accept i s₀) ∧
    (∀ t, exec i s₀ = .next t → ∃ n, n ≤ 26 ∧ phaseRun n (s.withFetchWord nbits w) = .next t) ∧
    (∀ r, exec i s₀ = .refused r → ∃ n, n ≤ 26 ∧ phaseRun n (s.withFetchWord nbits w) = .refused r)

/-- "There is no reset vector and no entry point: after reset the block is in `IDLE` and does nothing until the host raises
`op_start`" (R137); "no action occurs while PHASE = IDLE" (R50). -/
def Obligations.IdleDoesNothingWithoutStart : Prop :=
  ∀ s : State, s.phase = .idle → s.env.starts = [] → step s = .next s

/-- R21 and R22: a step is one row of the phase table, from every phase: at most one action, the one of the row, and the
row's successor. The arguments of the delays are the parameters of R7 by name. -/
def Obligations.StepIsOneRow : Prop :=
  ∀ s t : State, step s = .next t → ∃ xs : List Action, t.env.trace = s.env.trace ++ xs ∧ xs.length ≤ 1 ∧
    (s.phase = .idle → xs = [] ∧ ((s.env.starts = [] ∧ t = s) ∨ (s.env.starts ≠ [] ∧ t.phase = .wakeDisable))) ∧
    (s.phase = .wakeDisable → xs = [.engineDisable] ∧ t.phase = .wakeLow) ∧
    (s.phase = .wakeLow → xs = [.sdaLow] ∧ t.phase = .wakeHold) ∧
    (s.phase = .wakeHold → xs = [.delay Config.tWakeLow] ∧ t.phase = .wakeHigh) ∧
    (s.phase = .wakeHigh → xs = [.sdaHigh] ∧ t.phase = .wakeEnable) ∧
    (s.phase = .wakeEnable → xs = [.engineEnable] ∧ t.phase = .wakeSettle) ∧
    (s.phase = .wakeSettle → xs = [.delay Config.tWakeSettle] ∧ t.phase = .txBegin) ∧
    (s.phase = .txBegin → xs = [.beginWrite s.addr] ∧ t.idx = 0 ∧ t.phase = .txByte) ∧
    (s.phase = .txByte → ∃ b, s.txbuf[s.idx.toNat]? = some b ∧ xs = [.writeByte b] ∧ t.idx = s.idx + 1 ∧
      t.phase = if s.idx + 1 < s.txlen then .txByte else .txEnd) ∧
    (s.phase = .txEnd → xs = [.endWrite] ∧ t.phase = .cmdSettle) ∧
    (s.phase = .cmdSettle → xs = [.delay Config.tCmdSettle] ∧ t.phase = .rxBegin) ∧
    (s.phase = .rxBegin →
      xs = (if s.env.readPending then [] else [.beginRead s.addr s.rxlen.toNat]) ∧
      ((t.env.readPending = true ∧ t.phase = .rxBegin) ∨
       (t.env.readPending = false ∧ t.idx = 0 ∧ t.phase = .rxPoll))) ∧
    (s.phase = .rxPoll → xs = [.bytesAvailable s.env.rxQueue.length] ∧
      t.phase = if 0 < s.env.rxQueue.length then .rxByte else if s.opsel ≠ 0 then .check else .idle) ∧
    (s.phase = .rxByte → ∃ b bs, s.env.rxQueue = b :: bs ∧ t.env.rxQueue = bs ∧ xs = [.readByte b] ∧
      t.rxbuf[s.idx.toNat]? = some b ∧ t.idx = s.idx + 1 ∧ t.phase = .rxPoll) ∧
    (s.phase = .check → xs = [] ∧ t.phase = if frameValid s.rxbuf then .decode else .fail) ∧
    (s.phase = .decode → xs = [] ∧ t.phase = .idle) ∧
    (s.phase = .fail → xs = [] ∧ t.phase = .idle)

/-- The run of the machine the host sees is the rows of the phase table, one after another (R22). -/
def Obligations.RunsAreRows : Prop :=
  ∀ (n : Nat) (s : State), Host.Core.run core n s = phaseRun n s

/-! ### Encodings -/

/-- The decoder gives back the operation from its frame, whatever follows. -/
def Obligations.DecodeOfEncode : Prop :=
  ∀ (i : Instr) (rest : List Byte), decode (encode i ++ rest) = .ok (i, rest)

/-- The decoder accepts nothing but the four frames (R65, R66: "all bits of every frame are fixed"). -/
def Obligations.DecodeAcceptsOnlyTheFourFrames : Prop :=
  ∀ (bs rest : List Byte) (i : Instr), decode bs = .ok (i, rest) → bs = encode i ++ rest

/-- The opcode table's numbers decode to their operations (R57, R58, R65). -/
def Obligations.TableWordsDecode : Prop :=
  decodeTableWord 40 0x11006035A6 = some .initMeas ∧ decodeTableWord 32 0x2200082A = some .readCo2 ∧
  decodeTableWord 32 0x22001234 = some .readTemp ∧ decodeTableWord 32 0x22001436 = some .readRh

/-- R64: the four codes and their operations; every 2-bit code is one. -/
def Obligations.SelectCodes : Prop :=
  Instr.ofOpSel 0 = .initMeas ∧ Instr.ofOpSel 1 = .readCo2 ∧ Instr.ofOpSel 2 = .readTemp ∧ Instr.ofOpSel 3 = .readRh ∧
  (∀ sel : OpSel, (Instr.ofOpSel sel).opSel = sel) ∧ (∀ i : Instr, Instr.ofOpSel i.opSel = i)

/-- R65: the operation table, column by column: code, frame, its number, TXLEN, RXLEN, validated, DIVSEL. -/
def Obligations.OperationTable : Prop :=
  ∀ i : Instr, ∃ (f : List Byte) (w : Nat),
    encode i = f ∧ (tableFrame i).toList.take f.length = f ∧ (tableTxLen i).toNat = f.length ∧
    decodeTableWord (8 * f.length) w = some i ∧ w = f.foldl (fun n b => 256 * n + b.toNat) 0 ∧
    ((i.opSel = 0 ∧ i = .initMeas ∧ f = [0x11, 0x00, 0x60, 0x35, 0xA6] ∧ w = 0x11006035A6 ∧
        tableRxLen i = 2 ∧ tableValidated i = false ∧ tableDivSel i = 0) ∨
     (i.opSel = 1 ∧ i = .readCo2 ∧ f = [0x22, 0x00, 0x08, 0x2A] ∧ w = 0x2200082A ∧
        tableRxLen i = 4 ∧ tableValidated i = true ∧ tableDivSel i = 0) ∨
     (i.opSel = 2 ∧ i = .readTemp ∧ f = [0x22, 0x00, 0x12, 0x34] ∧ w = 0x22001234 ∧
        tableRxLen i = 4 ∧ tableValidated i = true ∧ tableDivSel i = 1) ∨
     (i.opSel = 3 ∧ i = .readRh ∧ f = [0x22, 0x00, 0x14, 0x36] ∧ w = 0x22001436 ∧
        tableRxLen i = 4 ∧ tableValidated i = true ∧ tableDivSel i = 1))

/-- R61: the last byte of every command frame is a literal of the table, and equals the mod-256 sum of the bytes before it. -/
def Obligations.FrameChecksumLiterals : Prop :=
  ∀ i : Instr, ∃ (body : List Byte) (c : Byte),
    encode i = body ++ [c] ∧ c.toNat = (body.map BitVec.toNat).sum % 256 ∧
    ((i = .readCo2 ∧ body = [0x22, 0x00, 0x08] ∧ c = 0x2A) ∨
     (i = .readTemp ∧ body = [0x22, 0x00, 0x12] ∧ c = 0x34) ∨
     (i = .readRh ∧ body = [0x22, 0x00, 0x14] ∧ c = 0x36) ∨
     (i = .initMeas ∧ body = [0x11, 0x00, 0x60, 0x35] ∧ c = 0xA6))

/-- R44: what a MemRead and a MemWrite send, and how many bytes they ask for; no other access exists. -/
def Obligations.MemoryAccessesExpand : Prop :=
  (∀ (ptr : Half) (i : Instr), memRead ptr = some i →
    ∃ hi lo cks : Byte, ptr = bePair hi lo ∧ cks = 0x22 + hi + lo ∧ encode i = [0x22, hi, lo, cks] ∧
      tableRxLen i = 4 ∧ tableValidated i = true) ∧
  (∀ ptr : Half, (memRead ptr).isSome = true ↔ ptr = 0x0008 ∨ ptr = 0x0012 ∨ ptr = 0x0014) ∧
  (∀ (ptr : Half) (v : Byte) (i : Instr), memWrite ptr v = some i ↔ ptr = 0x0060 ∧ v = 0x35 ∧ i = .initMeas) ∧
  encode .initMeas = [0x11, 0x00, 0x60, 0x35, 0xA6] ∧ tableRxLen .initMeas = 2 ∧ tableValidated .initMeas = false

/-- R56: the wire byte carries the address in its upper seven bits. That the low bit is 0 for a write and 1 for a read is
general knowledge (GK2, log 20). -/
def Obligations.AddressByte : Prop :=
  ∀ a : BusAddr, (addrByte a .write).toNat = 2 * a.toNat ∧ (addrByte a .read).toNat = 2 * a.toNat + 1

/-! ### The four operations -/

/-- R108: INIT_MEAS, whatever bytes (at most 2) the environment answers: the whole next state. -/
def Obligations.InitMeasResult : Prop :=
  ∀ (s : State) (avail : List Byte) (rest : List Answer),
    s.ready → s.env.answers = .bytes avail :: rest → avail.length ≤ 2 →
    exec .initMeas s = .next
      { addr := s.addr
        opsel := 0
        txbuf := #v[0x11, 0x00, 0x60, 0x35, 0xA6]
        txlen := 5
        rxbuf := pad4 avail
        rxlen := 2
        idx := BitVec.ofNat 3 avail.length
        chk := s.chk
        mag := s.mag
        divsel := 0
        res := { kind := .none, mag := 0, q := 0 }
        status := { busy := false, done := true, err := false }
        phase := .idle
        env :=
          { engineOn := true
            lineLow := false
            rxQueue := []
            readPending := false
            trace := s.env.trace ++ exchangeTrace s.addr [0x11, 0x00, 0x60, 0x35, 0xA6] 2 avail
            answers := rest
            draws := s.env.draws
            starts := s.env.starts } }

/-- R109: READ_CO2, whatever bytes (at most 4) the environment answers: the whole next state. -/
def Obligations.ReadCo2Result : Prop :=
  ∀ (s : State) (avail : List Byte) (rest : List Answer),
    s.ready → s.env.answers = .bytes avail :: rest → avail.length ≤ 4 →
    exec .readCo2 s = .next (readResult s 1 #v[0x22, 0x00, 0x08, 0x2A, 0x00] 0 avail rest)

/-- R110: READ_TEMP, whatever bytes (at most 4) the environment answers: the whole next state. -/
def Obligations.ReadTempResult : Prop :=
  ∀ (s : State) (avail : List Byte) (rest : List Answer),
    s.ready → s.env.answers = .bytes avail :: rest → avail.length ≤ 4 →
    exec .readTemp s = .next (readResult s 2 #v[0x22, 0x00, 0x12, 0x34, 0x00] 1 avail rest)

/-- R111: READ_RH, whatever bytes (at most 4) the environment answers: the whole next state. -/
def Obligations.ReadRhResult : Prop :=
  ∀ (s : State) (avail : List Byte) (rest : List Answer),
    s.ready → s.env.answers = .bytes avail :: rest → avail.length ≤ 4 →
    exec .readRh s = .next (readResult s 3 #v[0x22, 0x00, 0x14, 0x36, 0x00] 1 avail rest)

/-- R87, R133: a `BeginRead` that never returns leaves PHASE = RX_BEGIN and BUSY = 1 with the read issued once, and a
step changes nothing any more, so the block stays there for ever. -/
def Obligations.ReadThatNeverReturnsHangs : Prop :=
  ∀ (i : Instr) (s : State) (rest : List Answer), s.ready → s.env.answers = .never :: rest →
    ∃ t : State, exec i s = .next t ∧ t.phase = .rxBegin ∧ t.status = Status.mk true false false ∧
      t.res = Result.mk .none 0 0 ∧ t.rxbuf = #v[0, 0, 0, 0] ∧ t.addr = s.addr ∧ t.chk = s.chk ∧ t.mag = s.mag ∧
      t.env.trace = s.env.trace ++ commandTrace s.addr (encode i) ++ [.beginRead s.addr (tableRxLen i).toNat] ∧
      step t = .next t

/-- When an operation answers a next state, and when not: exactly while the block is not busy and the transport offers no more
than was asked for (R24, R84). That the two other cases are refused is the spec's own choice (D12, D17; logs 5 and 6). -/
def Obligations.OperationAnswersExactlyWhenAccepted : Prop :=
  ∀ (i : Instr) (s : State),
    (s.status.busy = true → exec i s = .refused .startWhileBusy) ∧
    (s.status.busy = false → (∃ avail rest, s.env.answers = .bytes avail :: rest ∧ (tableRxLen i).toNat < avail.length) →
      exec i s = .refused .overDelivery) ∧
    (s.status.busy = false → (∀ avail rest, s.env.answers = .bytes avail :: rest → avail.length ≤ (tableRxLen i).toNat) →
      ∃ t, exec i s = .next t)

/-- R45: an answer that is not listed is a free value, and whatever it is the operation completes with it, exactly as it does
with that answer listed; only the count of free answers differs (the form is the model's choice, log 3). -/
def Obligations.FreeAnswerActsAsAListedOne : Prop :=
  ∀ (i : Instr) (s : State), s.ready → s.env.answers = [] →
    ∃ (a : Answer) (t : State), a.withinContract (tableRxLen i).toNat = true ∧
      a = freeAnswerFor s.env.draws (tableRxLen i).toNat ∧
      exec i { s with env := { s.env with answers := [a] } } = .next t ∧
      exec i s = .next { t with env := { t.env with
        answers := []
        draws := if t.env.readPending then s.env.draws else s.env.draws + 1 } }

/-- R23, R114, R126: what an operation does is a function of ADDR, the operation and the environment's answer, and of nothing an
earlier operation left: same result, same flags, same registers it writes, same actions. -/
def Obligations.OperationsAreIndependentOfHistory : Prop :=
  ∀ (i : Instr) (a : Answer) (s₁ s₂ : State),
    s₁.ready → s₂.ready → s₁.addr = s₂.addr →
    nextAnswer (tableRxLen i).toNat a s₁ → nextAnswer (tableRxLen i).toNat a s₂ →
    ∃ (t₁ t₂ : State) (xs : List Action), exec i s₁ = .next t₁ ∧ exec i s₂ = .next t₂ ∧
      t₁.res = t₂.res ∧ t₁.status = t₂.status ∧ t₁.phase = t₂.phase ∧ t₁.rxbuf = t₂.rxbuf ∧ t₁.idx = t₂.idx ∧
      t₁.opsel = t₂.opsel ∧ t₁.txbuf = t₂.txbuf ∧ t₁.txlen = t₂.txlen ∧ t₁.rxlen = t₂.rxlen ∧ t₁.divsel = t₂.divsel ∧
      t₁.env.trace = s₁.env.trace ++ xs ∧ t₂.env.trace = s₂.env.trace ++ xs

/-- R21, R107: an operation is its accept step and then its rows of the phase table, one after another, as many as
95_test_vectors.md 2.5 counts, for every operation and every answer within the contract, listed or free; and where the read does
not return, the rows up to and with RX_BEGIN. -/
def Obligations.OperationIsItsPhaseRows : Prop :=
  ∀ (i : Instr) (s : State), s.status.busy = false →
    (∀ avail, nextAnswer (tableRxLen i).toNat (.bytes avail) s →
      phaseRun (rowCount i avail.length) (accept i s) = exec i s) ∧
    (nextAnswer (tableRxLen i).toNat .never s → phaseRun (10 + (encode i).length) (accept i s) = exec i s)

/-- R22, R152: from every state a run reaches, inside an operation, the block returns to IDLE with DONE set, if the transport's
read returns within its contract, with a listed or a free answer. That every other action returns, the delays among them, is
the model's choice (D22, log 17, unsafe for a claim that every operation ends), and so this statement's too. -/
def Obligations.OperationsEnd : Prop :=
  ∀ s : State, s.Inv → s.phase ≠ .idle →
    (s.phase.beforeRead = true → ∃ avail, nextAnswer s.rxlen.toNat (.bytes avail) s) →
    ∃ (n : Nat) (t : State), n ≤ 25 ∧ phaseRun n s = .next t ∧ t.phase = .idle ∧
      t.status.busy = false ∧ t.status.done = true

/-! ### The rows of the phase table -/

/-- R24, the accept step, as the row of IDLE: every register it writes, and nothing else but the start taken off the port. -/
def Obligations.AcceptStep : Prop :=
  ∀ (s : State) (sel : OpSel) (rest : List OpSel), s.phase = .idle → s.status.busy = false → s.env.starts = sel :: rest →
    ∃ (f : List Byte) (n : BitVec 3) (q : BitVec 1),
      ((sel = 0 ∧ f = [0x11, 0x00, 0x60, 0x35, 0xA6] ∧ n = 2 ∧ q = 0) ∨
       (sel = 1 ∧ f = [0x22, 0x00, 0x08, 0x2A] ∧ n = 4 ∧ q = 0) ∨
       (sel = 2 ∧ f = [0x22, 0x00, 0x12, 0x34] ∧ n = 4 ∧ q = 1) ∨
       (sel = 3 ∧ f = [0x22, 0x00, 0x14, 0x36] ∧ n = 4 ∧ q = 1)) ∧
      phaseStep s = .next { s with
        opsel := sel
        txbuf := #v[f.getD 0 0, f.getD 1 0, f.getD 2 0, f.getD 3 0, f.getD 4 0]
        txlen := BitVec.ofNat 3 f.length
        rxlen := n
        divsel := q
        rxbuf := #v[0x00, 0x00, 0x00, 0x00]
        res := { kind := .none, mag := 0, q := 0 }
        status := { busy := true, done := false, err := false }
        phase := .wakeDisable
        env := { s.env with starts := rest } }

/-- R70: the six rows of WAKE, their actions in order, and nothing else but PHASE, the engine and the line. That the two delays
have the argument 1 is a choice (D4, D5, log 12). -/
def Obligations.WakeRows : Prop :=
  ∀ s : State, s.phase = .wakeDisable →
    phaseRun 6 s = .next { s with
      phase := .txBegin
      env := { s.env with
        engineOn := true
        lineLow := false
        trace := s.env.trace ++ [.engineDisable, .sdaLow, .delay 1, .sdaHigh, .engineEnable, .delay 1] } }

/-- R73 with R70, row by row: what the engine and the line are after each row of WAKE, and the one action of each. That the two
delays have the argument 1 is a choice (D4, D5, log 12). -/
def Obligations.WakeRowByRow : Prop :=
  ∀ s : State,
    (s.phase = .wakeDisable → phaseStep s = .next { s with
      phase := .wakeLow, env := { s.env with engineOn := false, trace := s.env.trace ++ [.engineDisable] } }) ∧
    (s.phase = .wakeLow → phaseStep s = .next { s with
      phase := .wakeHold, env := { s.env with lineLow := true, trace := s.env.trace ++ [.sdaLow] } }) ∧
    (s.phase = .wakeHold → phaseStep s = .next { s with
      phase := .wakeHigh, env := { s.env with trace := s.env.trace ++ [.delay 1] } }) ∧
    (s.phase = .wakeHigh → phaseStep s = .next { s with
      phase := .wakeEnable, env := { s.env with lineLow := false, trace := s.env.trace ++ [.sdaHigh] } }) ∧
    (s.phase = .wakeEnable → phaseStep s = .next { s with
      phase := .wakeSettle, env := { s.env with engineOn := true, trace := s.env.trace ++ [.engineEnable] } }) ∧
    (s.phase = .wakeSettle → phaseStep s = .next { s with
      phase := .txBegin, env := { s.env with trace := s.env.trace ++ [.delay 1] } })

/-- R79: the write transaction: exactly TXLEN bytes, lowest index first, each once, for every legal TXLEN (R13). -/
def Obligations.WriteTransaction : Prop :=
  ∀ s : State, s.phase = .txBegin → (s.txlen = 4 ∨ s.txlen = 5) →
    phaseRun (s.txlen.toNat + 2) s = .next { s with
      idx := s.txlen
      phase := .cmdSettle
      env := { s.env with
        trace := s.env.trace ++ .beginWrite s.addr :: (s.txbuf.toList.take s.txlen.toNat).map .writeByte ++ [.endWrite] } }

/-- R80: "unconditionally waits a fixed settle interval (20 time units)". -/
def Obligations.SettleDelay : Prop :=
  ∀ s : State, s.phase = .cmdSettle →
    phaseStep s = .next { s with phase := .rxBegin, env := { s.env with trace := s.env.trace ++ [.delay 20] } }

/-- R81, R82, R83: the read transaction: `k + 1` counts and `k` bytes, the first byte to arrive in RXBUF[0], the positions beyond
left as they were, IDX = k; then CHECK, or the end of INIT_MEAS. -/
def Obligations.ReadTransaction : Prop :=
  ∀ (s : State) (avail : List Byte) (rest : List Answer), s.phase = .rxBegin → s.env.readPending = false →
    (s.rxlen = 2 ∨ s.rxlen = 4) → s.env.answers = .bytes avail :: rest → avail.length ≤ s.rxlen.toNat →
    ∃ t : State, phaseRun (2 * avail.length + 2) s = .next t ∧
      (∀ j (h : j < 4), t.rxbuf[j] = if j < avail.length then avail.getD j 0 else s.rxbuf[j]) ∧
      t = { s with
        rxbuf := t.rxbuf
        idx := BitVec.ofNat 3 avail.length
        status := if s.opsel = 0 then Status.mk false true s.status.err else s.status
        phase := if s.opsel = 0 then .idle else .check
        env := { s.env with
          rxQueue := []
          answers := rest
          trace := s.env.trace ++ .beginRead s.addr s.rxlen.toNat :: pollTrace avail } }

/-- R90: CHECK writes the wrapping sum to CHK and goes to DECODE exactly when it equals RXBUF[3]; nothing else changes. -/
def Obligations.ValidateRow : Prop :=
  ∀ s : State, s.phase = .check →
    phaseStep s = .next { s with
      chk := s.rxbuf[0] + s.rxbuf[1] + s.rxbuf[2]
      phase := if s.rxbuf[0] + s.rxbuf[1] + s.rxbuf[2] = s.rxbuf[3] then .decode else .fail }

/-- R96: DECODE writes MAG, RES, PHASE, BUSY and DONE, leaves ERR, and changes nothing else. -/
def Obligations.DecodeRow : Prop :=
  ∀ s : State, s.phase = .decode →
    ∃ m : Half, m.toNat = 256 * s.rxbuf[1].toNat + s.rxbuf[2].toNat ∧
      phaseStep s = .next { s with
        mag := m
        res := { kind := .value, mag := m, q := s.divsel }
        status := { busy := false, done := true, err := s.status.err }
        phase := .idle }

/-- R118: ChecksumMismatch: what FAIL writes in one step; that a frame failing the relation is what leads there, with CHK the
computed sum and nothing else written; and that INIT_MEAS never comes near it, nor does any but a failing frame. -/
def Obligations.FailRow : Prop :=
  (∀ s : State, s.phase = .fail →
    phaseStep s = .next { s with
      res := { kind := .error, mag := 0, q := 0 }
      status := { busy := false, done := true, err := true }
      phase := .idle }) ∧
  (∀ s : State, s.phase = .check → s.rxbuf[0] + s.rxbuf[1] + s.rxbuf[2] ≠ s.rxbuf[3] →
    phaseRun 2 s = .next { s with
      chk := s.rxbuf[0] + s.rxbuf[1] + s.rxbuf[2]
      res := { kind := .error, mag := 0, q := 0 }
      status := { busy := false, done := true, err := true }
      phase := .idle }) ∧
  (∀ s t : State, phaseStep s = .next t → t.phase = .fail →
    s.phase = .check ∧ s.rxbuf[0] + s.rxbuf[1] + s.rxbuf[2] ≠ s.rxbuf[3]) ∧
  (∀ s t : State, phaseStep s = .next t → t.phase = .check → s.phase = .rxPoll ∧ s.opsel ≠ 0)

/-! ### Checksum and conversion -/

/-- R91: the sum of three bytes is taken mod 256, in any order and with the truncation anywhere. -/
def Obligations.ChecksumWraps : Prop :=
  ∀ x y z w : Byte,
    (checksum #v[x, y, z, w]).toNat = (x.toNat + y.toNat + z.toNat) % 256 ∧
    checksum #v[x, y, z, w] = checksum #v[y, x, z, w] ∧ checksum #v[x, y, z, w] = checksum #v[x, z, y, w] ∧
    (frameValid #v[x, y, z, w] = true ↔ (x.toNat + y.toNat + z.toNat) % 256 = w.toNat)

/-- R93: the all-zero frame is accepted, and a read with no answer at all returns the value 0 and no error. -/
def Obligations.AllZeroFrameIsAccepted : Prop :=
  frameValid #v[0, 0, 0, 0] = true ∧
  ∀ (i : Instr) (s : State) (rest : List Answer), i ≠ .initMeas → s.ready → s.env.answers = .bytes [] :: rest →
    ∃ t : State, exec i s = .next t ∧ t.res.kind = .value ∧ t.res.mag = 0 ∧ t.status.err = false ∧
      realOf t.res = some 0 ∧ floatOf Config.binary32 t.res = some 0x00000000

/-- R93: for each choice of the first three bytes exactly one last byte is valid. -/
def Obligations.OneValidChecksumPerPayload : Prop :=
  ∀ x y z : Byte, ∃! w : Byte, frameValid #v[x, y, z, w] = true

/-- 95_test_vectors.md V-V15: an error in any one byte of a valid frame is caught. -/
def Obligations.SingleByteErrorIsCaught : Prop :=
  ∀ (rx : Vector Byte 4) (j : Nat) (h : j < 4) (b : Byte), frameValid rx = true → b ≠ rx[j] → frameValid (rx.set j b) = false

/-- R97, R101: a value is an exact quotient by 1 or 100 between 0 and 65535, so it is never the sentinel -1. -/
def Obligations.ValuesAreNeverTheSentinel : Prop :=
  ∀ (m : Half) (q : BitVec 1),
    ∃ x : Rat, realOf { kind := .value, mag := m, q := q } = some x ∧
      x = (if q = 0 then (m.toNat : Rat) else (m.toNat : Rat) / 100) ∧ 0 ≤ x ∧ x ≤ 65535 ∧
      some x ≠ realOf { kind := .error, mag := 0, q := 0 }

/-- R101: the sentinel is -1 in every view, and -1.0 in binary32 is 0xBF800000. -/
def Obligations.SentinelIsMinusOne : Prop :=
  realOf (raiseChecksumMismatch State.reset).res = some (-1) ∧
  floatOf Config.binary32 (raiseChecksumMismatch State.reset).res = some 0xBF800000 ∧
  floatValue Config.binary32 0xBF800000 = some (-1)

/-- R103: every 16-bit magnitude, split into two bytes and decoded, comes back exactly as the integer; with divisor 1 also as a
real number and as a floating-point number. -/
def Obligations.RoundTripOfTheMagnitude : Prop :=
  ∀ (s : State) (m : Half), s.phase = .decode → s.rxbuf[1] = m.extractLsb' 8 8 → s.rxbuf[2] = m.extractLsb' 0 8 →
    ∃ t : State, phaseStep s = .next t ∧ t.res.mag = m ∧ t.res.kind = .value ∧ t.res.q = s.divsel ∧
      (s.divsel = 0 → ∃ b : BitVec 32, realOf t.res = some (m.toNat : Rat) ∧
        floatOf Config.binary32 t.res = some b ∧ floatValue Config.binary32 b = some (m.toNat : Rat))

/-- R100: `F(RES)`, for every VALUE and for ERROR, is a binary32 number at least as near to the exact `Real(RES)` as every other
finite binary32 number, and where another one is equally near, its last significand bit is 0. That the format is binary32 is a choice (D10,
log 13). -/
def Obligations.FloatViewIsNearestEven : Prop :=
  ∀ r : Result, r.kind ≠ .none → ∃ (v : Rat) (b : BitVec 32) (x : Rat),
    realOf r = some v ∧ floatOf Config.binary32 r = some b ∧ floatValue Config.binary32 b = some x ∧
    ∀ (c : BitVec 32) (y : Rat), floatValue Config.binary32 c = some y → y ≠ x →
      |x - v| < |y - v| ∨ (|x - v| = |y - v| ∧ b.toNat % 2 = 0)

/-! ### The host port -/

/-- R24: what the output ports show, and that they show nothing of the registers behind (R132). That `res_f` is in binary32 is a
choice (D10, log 13). -/
def Obligations.HostPortsShowStatusAndResult : Prop :=
  (∀ s : State, (hostPorts s).busy = s.status.busy ∧ (hostPorts s).done = s.status.done ∧ (hostPorts s).err = s.status.err ∧
    (hostPorts s).resKind = s.res.kind ∧ (hostPorts s).resMag = s.res.mag ∧ (hostPorts s).resQ = s.res.q ∧
    (hostPorts s).resF = floatOf Config.binary32 s.res) ∧
  ∀ s t : State, s.status = t.status → s.res = t.res → hostPorts s = hostPorts t
end

