-- ==== Sys2Proof/Laws/State.lean ====
section
/-! SUPPORT. One lemma per field per named update, each true by unfolding the update once, so that no later proof unfolds a
record update. -/

namespace Sys2Proof.Machine

@[simp] theorem setPhase_addr (p : Phase) (s : State) : (setPhase p s).addr = s.addr := rfl
@[simp] theorem setPhase_opsel (p : Phase) (s : State) : (setPhase p s).opsel = s.opsel := rfl
@[simp] theorem setPhase_txbuf (p : Phase) (s : State) : (setPhase p s).txbuf = s.txbuf := rfl
@[simp] theorem setPhase_txlen (p : Phase) (s : State) : (setPhase p s).txlen = s.txlen := rfl
@[simp] theorem setPhase_rxbuf (p : Phase) (s : State) : (setPhase p s).rxbuf = s.rxbuf := rfl
@[simp] theorem setPhase_rxlen (p : Phase) (s : State) : (setPhase p s).rxlen = s.rxlen := rfl
@[simp] theorem setPhase_idx (p : Phase) (s : State) : (setPhase p s).idx = s.idx := rfl
@[simp] theorem setPhase_chk (p : Phase) (s : State) : (setPhase p s).chk = s.chk := rfl
@[simp] theorem setPhase_mag (p : Phase) (s : State) : (setPhase p s).mag = s.mag := rfl
@[simp] theorem setPhase_divsel (p : Phase) (s : State) : (setPhase p s).divsel = s.divsel := rfl
@[simp] theorem setPhase_res (p : Phase) (s : State) : (setPhase p s).res = s.res := rfl
@[simp] theorem setPhase_status (p : Phase) (s : State) : (setPhase p s).status = s.status := rfl
@[simp] theorem setPhase_phase (p : Phase) (s : State) : (setPhase p s).phase = p := rfl
@[simp] theorem setPhase_env (p : Phase) (s : State) : (setPhase p s).env = s.env := rfl

@[simp] theorem mapEnv_addr (f : Env → Env) (s : State) : (mapEnv f s).addr = s.addr := rfl
@[simp] theorem mapEnv_opsel (f : Env → Env) (s : State) : (mapEnv f s).opsel = s.opsel := rfl
@[simp] theorem mapEnv_txbuf (f : Env → Env) (s : State) : (mapEnv f s).txbuf = s.txbuf := rfl
@[simp] theorem mapEnv_txlen (f : Env → Env) (s : State) : (mapEnv f s).txlen = s.txlen := rfl
@[simp] theorem mapEnv_rxbuf (f : Env → Env) (s : State) : (mapEnv f s).rxbuf = s.rxbuf := rfl
@[simp] theorem mapEnv_rxlen (f : Env → Env) (s : State) : (mapEnv f s).rxlen = s.rxlen := rfl
@[simp] theorem mapEnv_idx (f : Env → Env) (s : State) : (mapEnv f s).idx = s.idx := rfl
@[simp] theorem mapEnv_chk (f : Env → Env) (s : State) : (mapEnv f s).chk = s.chk := rfl
@[simp] theorem mapEnv_mag (f : Env → Env) (s : State) : (mapEnv f s).mag = s.mag := rfl
@[simp] theorem mapEnv_divsel (f : Env → Env) (s : State) : (mapEnv f s).divsel = s.divsel := rfl
@[simp] theorem mapEnv_res (f : Env → Env) (s : State) : (mapEnv f s).res = s.res := rfl
@[simp] theorem mapEnv_status (f : Env → Env) (s : State) : (mapEnv f s).status = s.status := rfl
@[simp] theorem mapEnv_phase (f : Env → Env) (s : State) : (mapEnv f s).phase = s.phase := rfl
@[simp] theorem mapEnv_env (f : Env → Env) (s : State) : (mapEnv f s).env = f s.env := rfl

@[simp] theorem storeRx_addr (b : Byte) (s : State) : (storeRx b s).addr = s.addr := rfl
@[simp] theorem storeRx_opsel (b : Byte) (s : State) : (storeRx b s).opsel = s.opsel := rfl
@[simp] theorem storeRx_txbuf (b : Byte) (s : State) : (storeRx b s).txbuf = s.txbuf := rfl
@[simp] theorem storeRx_txlen (b : Byte) (s : State) : (storeRx b s).txlen = s.txlen := rfl
@[simp] theorem storeRx_rxbuf (b : Byte) (s : State) : (storeRx b s).rxbuf = s.rxbuf.setIfInBounds s.idx.toNat b := rfl
@[simp] theorem storeRx_rxlen (b : Byte) (s : State) : (storeRx b s).rxlen = s.rxlen := rfl
@[simp] theorem storeRx_idx (b : Byte) (s : State) : (storeRx b s).idx = s.idx := rfl
@[simp] theorem storeRx_chk (b : Byte) (s : State) : (storeRx b s).chk = s.chk := rfl
@[simp] theorem storeRx_mag (b : Byte) (s : State) : (storeRx b s).mag = s.mag := rfl
@[simp] theorem storeRx_divsel (b : Byte) (s : State) : (storeRx b s).divsel = s.divsel := rfl
@[simp] theorem storeRx_res (b : Byte) (s : State) : (storeRx b s).res = s.res := rfl
@[simp] theorem storeRx_status (b : Byte) (s : State) : (storeRx b s).status = s.status := rfl
@[simp] theorem storeRx_phase (b : Byte) (s : State) : (storeRx b s).phase = s.phase := rfl
@[simp] theorem storeRx_env (b : Byte) (s : State) : (storeRx b s).env = s.env := rfl

@[simp] theorem incIdx_addr (s : State) : (incIdx s).addr = s.addr := rfl
@[simp] theorem incIdx_opsel (s : State) : (incIdx s).opsel = s.opsel := rfl
@[simp] theorem incIdx_txbuf (s : State) : (incIdx s).txbuf = s.txbuf := rfl
@[simp] theorem incIdx_txlen (s : State) : (incIdx s).txlen = s.txlen := rfl
@[simp] theorem incIdx_rxbuf (s : State) : (incIdx s).rxbuf = s.rxbuf := rfl
@[simp] theorem incIdx_rxlen (s : State) : (incIdx s).rxlen = s.rxlen := rfl
@[simp] theorem incIdx_idx (s : State) : (incIdx s).idx = s.idx + 1 := rfl
@[simp] theorem incIdx_chk (s : State) : (incIdx s).chk = s.chk := rfl
@[simp] theorem incIdx_mag (s : State) : (incIdx s).mag = s.mag := rfl
@[simp] theorem incIdx_divsel (s : State) : (incIdx s).divsel = s.divsel := rfl
@[simp] theorem incIdx_res (s : State) : (incIdx s).res = s.res := rfl
@[simp] theorem incIdx_status (s : State) : (incIdx s).status = s.status := rfl
@[simp] theorem incIdx_phase (s : State) : (incIdx s).phase = s.phase := rfl
@[simp] theorem incIdx_env (s : State) : (incIdx s).env = s.env := rfl

@[simp] theorem clearIdx_addr (s : State) : (clearIdx s).addr = s.addr := rfl
@[simp] theorem clearIdx_opsel (s : State) : (clearIdx s).opsel = s.opsel := rfl
@[simp] theorem clearIdx_txbuf (s : State) : (clearIdx s).txbuf = s.txbuf := rfl
@[simp] theorem clearIdx_txlen (s : State) : (clearIdx s).txlen = s.txlen := rfl
@[simp] theorem clearIdx_rxbuf (s : State) : (clearIdx s).rxbuf = s.rxbuf := rfl
@[simp] theorem clearIdx_rxlen (s : State) : (clearIdx s).rxlen = s.rxlen := rfl
@[simp] theorem clearIdx_idx (s : State) : (clearIdx s).idx = 0 := rfl
@[simp] theorem clearIdx_chk (s : State) : (clearIdx s).chk = s.chk := rfl
@[simp] theorem clearIdx_mag (s : State) : (clearIdx s).mag = s.mag := rfl
@[simp] theorem clearIdx_divsel (s : State) : (clearIdx s).divsel = s.divsel := rfl
@[simp] theorem clearIdx_res (s : State) : (clearIdx s).res = s.res := rfl
@[simp] theorem clearIdx_status (s : State) : (clearIdx s).status = s.status := rfl
@[simp] theorem clearIdx_phase (s : State) : (clearIdx s).phase = s.phase := rfl
@[simp] theorem clearIdx_env (s : State) : (clearIdx s).env = s.env := rfl

@[simp] theorem perform_addr (a : Action) (s : State) : (perform a s).addr = s.addr := rfl
@[simp] theorem perform_opsel (a : Action) (s : State) : (perform a s).opsel = s.opsel := rfl
@[simp] theorem perform_txbuf (a : Action) (s : State) : (perform a s).txbuf = s.txbuf := rfl
@[simp] theorem perform_txlen (a : Action) (s : State) : (perform a s).txlen = s.txlen := rfl
@[simp] theorem perform_rxbuf (a : Action) (s : State) : (perform a s).rxbuf = s.rxbuf := rfl
@[simp] theorem perform_rxlen (a : Action) (s : State) : (perform a s).rxlen = s.rxlen := rfl
@[simp] theorem perform_idx (a : Action) (s : State) : (perform a s).idx = s.idx := rfl
@[simp] theorem perform_chk (a : Action) (s : State) : (perform a s).chk = s.chk := rfl
@[simp] theorem perform_mag (a : Action) (s : State) : (perform a s).mag = s.mag := rfl
@[simp] theorem perform_divsel (a : Action) (s : State) : (perform a s).divsel = s.divsel := rfl
@[simp] theorem perform_res (a : Action) (s : State) : (perform a s).res = s.res := rfl
@[simp] theorem perform_status (a : Action) (s : State) : (perform a s).status = s.status := rfl
@[simp] theorem perform_phase (a : Action) (s : State) : (perform a s).phase = s.phase := rfl
@[simp] theorem perform_env (a : Action) (s : State) : (perform a s).env = record a (actionEffect a s.env) := rfl

@[simp] theorem accept_addr (i : Instr) (s : State) : (accept i s).addr = s.addr := rfl
@[simp] theorem accept_opsel (i : Instr) (s : State) : (accept i s).opsel = i.opSel := rfl
@[simp] theorem accept_txbuf (i : Instr) (s : State) : (accept i s).txbuf = tableFrame i := rfl
@[simp] theorem accept_txlen (i : Instr) (s : State) : (accept i s).txlen = tableTxLen i := rfl
@[simp] theorem accept_rxbuf (i : Instr) (s : State) : (accept i s).rxbuf = #v[0x00, 0x00, 0x00, 0x00] := rfl
@[simp] theorem accept_rxlen (i : Instr) (s : State) : (accept i s).rxlen = tableRxLen i := rfl
@[simp] theorem accept_idx (i : Instr) (s : State) : (accept i s).idx = s.idx := rfl
@[simp] theorem accept_chk (i : Instr) (s : State) : (accept i s).chk = s.chk := rfl
@[simp] theorem accept_mag (i : Instr) (s : State) : (accept i s).mag = s.mag := rfl
@[simp] theorem accept_divsel (i : Instr) (s : State) : (accept i s).divsel = tableDivSel i := rfl
@[simp] theorem accept_res (i : Instr) (s : State) : (accept i s).res = Result.mk .none 0 0 := rfl
@[simp] theorem accept_status (i : Instr) (s : State) : (accept i s).status = statusAccepted := rfl
@[simp] theorem accept_phase (i : Instr) (s : State) : (accept i s).phase = Phase.wakeDisable := rfl
@[simp] theorem accept_env (i : Instr) (s : State) : (accept i s).env = s.env := rfl

@[simp] theorem endOperation_addr (s : State) : (endOperation s).addr = s.addr := rfl
@[simp] theorem endOperation_opsel (s : State) : (endOperation s).opsel = s.opsel := rfl
@[simp] theorem endOperation_txbuf (s : State) : (endOperation s).txbuf = s.txbuf := rfl
@[simp] theorem endOperation_txlen (s : State) : (endOperation s).txlen = s.txlen := rfl
@[simp] theorem endOperation_rxbuf (s : State) : (endOperation s).rxbuf = s.rxbuf := rfl
@[simp] theorem endOperation_rxlen (s : State) : (endOperation s).rxlen = s.rxlen := rfl
@[simp] theorem endOperation_idx (s : State) : (endOperation s).idx = s.idx := rfl
@[simp] theorem endOperation_chk (s : State) : (endOperation s).chk = s.chk := rfl
@[simp] theorem endOperation_mag (s : State) : (endOperation s).mag = s.mag := rfl
@[simp] theorem endOperation_divsel (s : State) : (endOperation s).divsel = s.divsel := rfl
@[simp] theorem endOperation_res (s : State) : (endOperation s).res = s.res := rfl
@[simp] theorem endOperation_status (s : State) : (endOperation s).status = statusEnded s.status := rfl
@[simp] theorem endOperation_phase (s : State) : (endOperation s).phase = Phase.idle := rfl
@[simp] theorem endOperation_env (s : State) : (endOperation s).env = s.env := rfl

@[simp] theorem raiseChecksumMismatch_addr (s : State) : (raiseChecksumMismatch s).addr = s.addr := rfl
@[simp] theorem raiseChecksumMismatch_opsel (s : State) : (raiseChecksumMismatch s).opsel = s.opsel := rfl
@[simp] theorem raiseChecksumMismatch_txbuf (s : State) : (raiseChecksumMismatch s).txbuf = s.txbuf := rfl
@[simp] theorem raiseChecksumMismatch_txlen (s : State) : (raiseChecksumMismatch s).txlen = s.txlen := rfl
@[simp] theorem raiseChecksumMismatch_rxbuf (s : State) : (raiseChecksumMismatch s).rxbuf = s.rxbuf := rfl
@[simp] theorem raiseChecksumMismatch_rxlen (s : State) : (raiseChecksumMismatch s).rxlen = s.rxlen := rfl
@[simp] theorem raiseChecksumMismatch_idx (s : State) : (raiseChecksumMismatch s).idx = s.idx := rfl
@[simp] theorem raiseChecksumMismatch_chk (s : State) : (raiseChecksumMismatch s).chk = s.chk := rfl
@[simp] theorem raiseChecksumMismatch_mag (s : State) : (raiseChecksumMismatch s).mag = s.mag := rfl
@[simp] theorem raiseChecksumMismatch_divsel (s : State) : (raiseChecksumMismatch s).divsel = s.divsel := rfl
@[simp] theorem raiseChecksumMismatch_res (s : State) : (raiseChecksumMismatch s).res = Result.mk .error 0 0 := rfl
@[simp] theorem raiseChecksumMismatch_status (s : State) : (raiseChecksumMismatch s).status = statusFailed := rfl
@[simp] theorem raiseChecksumMismatch_phase (s : State) : (raiseChecksumMismatch s).phase = Phase.idle := rfl
@[simp] theorem raiseChecksumMismatch_env (s : State) : (raiseChecksumMismatch s).env = s.env := rfl

@[simp] theorem rowCheck_addr (s : State) : (rowCheck s).addr = s.addr := rfl
@[simp] theorem rowCheck_opsel (s : State) : (rowCheck s).opsel = s.opsel := rfl
@[simp] theorem rowCheck_txbuf (s : State) : (rowCheck s).txbuf = s.txbuf := rfl
@[simp] theorem rowCheck_txlen (s : State) : (rowCheck s).txlen = s.txlen := rfl
@[simp] theorem rowCheck_rxbuf (s : State) : (rowCheck s).rxbuf = s.rxbuf := rfl
@[simp] theorem rowCheck_rxlen (s : State) : (rowCheck s).rxlen = s.rxlen := rfl
@[simp] theorem rowCheck_idx (s : State) : (rowCheck s).idx = s.idx := rfl
@[simp] theorem rowCheck_chk (s : State) : (rowCheck s).chk = checksum s.rxbuf := rfl
@[simp] theorem rowCheck_mag (s : State) : (rowCheck s).mag = s.mag := rfl
@[simp] theorem rowCheck_divsel (s : State) : (rowCheck s).divsel = s.divsel := rfl
@[simp] theorem rowCheck_res (s : State) : (rowCheck s).res = s.res := rfl
@[simp] theorem rowCheck_status (s : State) : (rowCheck s).status = s.status := rfl
@[simp] theorem rowCheck_phase (s : State) : (rowCheck s).phase = if frameValid s.rxbuf then Phase.decode else Phase.fail := rfl
@[simp] theorem rowCheck_env (s : State) : (rowCheck s).env = s.env := rfl

@[simp] theorem rowDecode_addr (s : State) : (rowDecode s).addr = s.addr := rfl
@[simp] theorem rowDecode_opsel (s : State) : (rowDecode s).opsel = s.opsel := rfl
@[simp] theorem rowDecode_txbuf (s : State) : (rowDecode s).txbuf = s.txbuf := rfl
@[simp] theorem rowDecode_txlen (s : State) : (rowDecode s).txlen = s.txlen := rfl
@[simp] theorem rowDecode_rxbuf (s : State) : (rowDecode s).rxbuf = s.rxbuf := rfl
@[simp] theorem rowDecode_rxlen (s : State) : (rowDecode s).rxlen = s.rxlen := rfl
@[simp] theorem rowDecode_idx (s : State) : (rowDecode s).idx = s.idx := rfl
@[simp] theorem rowDecode_chk (s : State) : (rowDecode s).chk = s.chk := rfl
@[simp] theorem rowDecode_mag (s : State) : (rowDecode s).mag = magnitude s.rxbuf := rfl
@[simp] theorem rowDecode_divsel (s : State) : (rowDecode s).divsel = s.divsel := rfl
@[simp] theorem rowDecode_res (s : State) : (rowDecode s).res = Result.mk .value (magnitude s.rxbuf) s.divsel := rfl
@[simp] theorem rowDecode_status (s : State) : (rowDecode s).status = statusEnded s.status := rfl
@[simp] theorem rowDecode_phase (s : State) : (rowDecode s).phase = Phase.idle := rfl
@[simp] theorem rowDecode_env (s : State) : (rowDecode s).env = s.env := rfl

@[simp] theorem record_engineOn (a : Action) (e : Env) : (record a e).engineOn = e.engineOn := rfl
@[simp] theorem record_lineLow (a : Action) (e : Env) : (record a e).lineLow = e.lineLow := rfl
@[simp] theorem record_rxQueue (a : Action) (e : Env) : (record a e).rxQueue = e.rxQueue := rfl
@[simp] theorem record_readPending (a : Action) (e : Env) : (record a e).readPending = e.readPending := rfl
@[simp] theorem record_trace (a : Action) (e : Env) : (record a e).trace = e.trace ++ [a] := rfl
@[simp] theorem record_answers (a : Action) (e : Env) : (record a e).answers = e.answers := rfl
@[simp] theorem record_draws (a : Action) (e : Env) : (record a e).draws = e.draws := rfl
@[simp] theorem record_starts (a : Action) (e : Env) : (record a e).starts = e.starts := rfl

@[simp] theorem deliver_engineOn (avail : List Byte) (e : Env) : (deliver avail e).engineOn = (consumeAnswer e).engineOn := rfl
@[simp] theorem deliver_lineLow (avail : List Byte) (e : Env) : (deliver avail e).lineLow = (consumeAnswer e).lineLow := rfl
@[simp] theorem deliver_rxQueue (avail : List Byte) (e : Env) : (deliver avail e).rxQueue = avail := rfl
@[simp] theorem deliver_readPending (avail : List Byte) (e : Env) : (deliver avail e).readPending = false := rfl
@[simp] theorem deliver_trace (avail : List Byte) (e : Env) : (deliver avail e).trace = (consumeAnswer e).trace := rfl
@[simp] theorem deliver_answers (avail : List Byte) (e : Env) : (deliver avail e).answers = (consumeAnswer e).answers := rfl
@[simp] theorem deliver_draws (avail : List Byte) (e : Env) : (deliver avail e).draws = (consumeAnswer e).draws := rfl
@[simp] theorem deliver_starts (avail : List Byte) (e : Env) : (deliver avail e).starts = (consumeAnswer e).starts := rfl

@[simp] theorem actionEffect_trace (a : Action) (e : Env) : (actionEffect a e).trace = e.trace := by cases a <;> rfl
@[simp] theorem actionEffect_answers (a : Action) (e : Env) : (actionEffect a e).answers = e.answers := by cases a <;> rfl
@[simp] theorem actionEffect_draws (a : Action) (e : Env) : (actionEffect a e).draws = e.draws := by cases a <;> rfl
@[simp] theorem actionEffect_starts (a : Action) (e : Env) : (actionEffect a e).starts = e.starts := by cases a <;> rfl

@[simp] theorem actionEffect_engineDisable (e : Env) : actionEffect .engineDisable e = { e with engineOn := false } := rfl
@[simp] theorem actionEffect_sdaLow (e : Env) : actionEffect .sdaLow e = { e with lineLow := true } := rfl
@[simp] theorem actionEffect_sdaHigh (e : Env) : actionEffect .sdaHigh e = { e with lineLow := false } := rfl
@[simp] theorem actionEffect_engineEnable (e : Env) : actionEffect .engineEnable e = { e with engineOn := true } := rfl
@[simp] theorem actionEffect_beginRead (a : BusAddr) (n : Nat) (e : Env) : actionEffect (.beginRead a n) e = { e with readPending := true } := rfl
@[simp] theorem actionEffect_readByte (b : Byte) (e : Env) : actionEffect (.readByte b) e = { e with rxQueue := e.rxQueue.tail } := rfl
@[simp] theorem actionEffect_delay (d : Nat) (e : Env) : actionEffect (.delay d) e = e := rfl
@[simp] theorem actionEffect_beginWrite (a : BusAddr) (e : Env) : actionEffect (.beginWrite a) e = e := rfl
@[simp] theorem actionEffect_writeByte (b : Byte) (e : Env) : actionEffect (.writeByte b) e = e := rfl
@[simp] theorem actionEffect_endWrite (e : Env) : actionEffect .endWrite e = e := rfl
@[simp] theorem actionEffect_bytesAvailable (c : Nat) (e : Env) : actionEffect (.bytesAvailable c) e = e := rfl

@[simp] theorem consumeAnswer_engineOn (e : Env) : (consumeAnswer e).engineOn = e.engineOn := by unfold consumeAnswer; split <;> rfl
@[simp] theorem consumeAnswer_lineLow (e : Env) : (consumeAnswer e).lineLow = e.lineLow := by unfold consumeAnswer; split <;> rfl
@[simp] theorem consumeAnswer_rxQueue (e : Env) : (consumeAnswer e).rxQueue = e.rxQueue := by unfold consumeAnswer; split <;> rfl
@[simp] theorem consumeAnswer_readPending (e : Env) : (consumeAnswer e).readPending = e.readPending := by unfold consumeAnswer; split <;> rfl
@[simp] theorem consumeAnswer_trace (e : Env) : (consumeAnswer e).trace = e.trace := by unfold consumeAnswer; split <;> rfl
@[simp] theorem consumeAnswer_starts (e : Env) : (consumeAnswer e).starts = e.starts := by unfold consumeAnswer; split <;> rfl

@[simp] theorem statusAccepted_busy : statusAccepted.busy = true := rfl
@[simp] theorem statusAccepted_done : statusAccepted.done = false := rfl
@[simp] theorem statusAccepted_err : statusAccepted.err = false := rfl
@[simp] theorem statusEnded_busy (st : Status) : (statusEnded st).busy = false := rfl
@[simp] theorem statusEnded_done (st : Status) : (statusEnded st).done = true := rfl
@[simp] theorem statusEnded_err (st : Status) : (statusEnded st).err = st.err := rfl
@[simp] theorem statusFailed_busy : statusFailed.busy = false := rfl
@[simp] theorem statusFailed_done : statusFailed.done = true := rfl
@[simp] theorem statusFailed_err : statusFailed.err = true := rfl

end Sys2Proof.Machine
end

