-- ==== Sys2Proof/Laws/Ops.lean ====
section
/-! SUPPORT. For each shared operation, one lemma that says everything it can do. -/

namespace Sys2Proof.Machine

/-- Changing PHASE back and forth, the last change counts. -/
theorem setPhase_setPhase (p q : Phase) (s : State) : setPhase p (setPhase q s) = setPhase p s := rfl

/-- A start is taken off the port, or there is none. -/
theorem nextStart_cases (s : State) :
    (s.env.starts = [] ∧ nextStart s = none) ∨
    ∃ sel rest, s.env.starts = sel :: rest ∧
      nextStart s = some (Instr.ofOpSel sel, mapEnv (fun e => { e with starts := rest }) s) := by
  rcases h : s.env.starts with _ | ⟨sel, rest⟩
  · exact .inl ⟨rfl, by simp [nextStart, h]⟩
  · exact .inr ⟨sel, rest, rfl, by simp [nextStart, h]⟩

/-- An operation answers a next state exactly when the block is not busy and the transport keeps to its contract. -/
theorem runOperation_next_iff (i : Instr) (f : State → State) (s t : State) :
    runOperation i f s = .next t ↔
      s.status.busy = false ∧ overDelivers (command (accept i s)) = false ∧
      t = respond f (command (accept i s)) := by
  unfold runOperation
  cases s.status.busy <;> cases overDelivers (command (accept i s)) <;> simp [eq_comm]

/-- WAKE in one equation (40_wake.md R70): the engine and the line end as they must, six actions are performed. -/
theorem wake_eq (s : State) :
    wake s = { s with
      phase := .txBegin
      env := { s.env with
        engineOn := true
        lineLow := false
        trace := s.env.trace ++ [.engineDisable, .sdaLow, .delay 1, .sdaHigh, .engineEnable, .delay 1] } } := by
  simp only [wake, rowWakeDisable, rowWakeLow, rowWakeHold, rowWakeHigh, rowWakeEnable, rowWakeSettle, setPhase,
    perform, mapEnv, record, actionEffect, List.append_assoc, List.cons_append, List.nil_append, Config.tWakeLow,
    Config.tWakeSettle]

/-- The write loop in one equation: from IDX = j with n bytes left, the frame's bytes j to j + n - 1 are written (R79). -/
theorem sendBytes_eq (f : List Byte) (n : Nat) : ∀ (s : State), s.phase = .txByte → n ≠ 0 →
    s.idx.toNat + n = s.txlen.toNat → (∀ j, j < s.txlen.toNat → (s.txbuf[j]?).getD 0 = f.getD j 0) →
    f.length = s.txlen.toNat →
    sendBytes n s = { s with
      idx := s.txlen
      phase := .txEnd
      env := { s.env with trace := s.env.trace ++ (f.drop s.idx.toNat).map .writeByte } } := by
  induction n with
  | zero => intro s _ h; exact absurd rfl h
  | succ n ih =>
    intro s hp _ hn hf hl
    have hi : s.idx.toNat < f.length := by omega
    have hlt : (s.idx + 1).toNat = s.idx.toNat + 1 := by
      have := s.txlen.isLt
      rw [BitVec.toNat_add]; simp; omega
    have hb : txByteAt s = f[s.idx.toNat] := by
      rw [txByteAt, hf _ (by omega)]; simp [List.getD, hi]
    rcases Nat.eq_zero_or_pos n with rfl | hpos
    · have he : s.idx + 1 = s.txlen := by
        apply BitVec.eq_of_toNat_eq; omega
      have hd : f.drop s.idx.toNat = [f[s.idx.toNat]] := by
        rw [List.drop_eq_getElem_cons hi, List.drop_of_length_le (by omega)]
      simp only [sendBytes, rowTxByte, incIdx_idx, incIdx_txlen, perform_idx, perform_txlen, he,
        phaseAfterByte, BitVec.lt_irrefl, ite_false, hd, List.map_cons, List.map_nil, hb]
      simp only [setPhase, incIdx, perform, mapEnv, record, actionEffect, he]
    · have hlt' : s.idx + 1 < s.txlen := by
        rw [BitVec.lt_def]; omega
      have step : rowTxByte s = { s with
          idx := s.idx + 1
          env := { s.env with trace := s.env.trace ++ [.writeByte f[s.idx.toNat]] } } := by
        simp only [rowTxByte, incIdx_idx, incIdx_txlen, perform_idx, perform_txlen, phaseAfterByte, hlt', if_true, hb]
        simp only [setPhase, incIdx, perform, mapEnv, record, actionEffect, ← hp]
      rw [sendBytes, step, ih]
      · simp only [hlt, List.append_assoc, List.drop_eq_getElem_cons hi, List.map_cons, List.singleton_append]
      · exact hp
      · omega
      · simp only [hlt]; omega
      · exact hf
      · exact hl

/-- Everything before the read, from the accept step, in one equation (R78 to R80). -/
theorem command_accept (i : Instr) (s : State) :
    command (accept i s) =
      { accept i s with
        idx := tableTxLen i
        phase := .rxBegin
        env := { s.env with
          engineOn := true
          lineLow := false
          trace := s.env.trace ++ commandTrace s.addr (encode i) } } := by
  have hlen : (encode i).length = (tableTxLen i).toNat := by cases i <;> rfl
  have htx : ∀ j, j < (tableTxLen i).toNat → ((tableFrame i)[j]?).getD 0 = (encode i).getD j 0 := by
    cases i <;> decide
  have hne : (tableTxLen i).toNat ≠ 0 := by cases i <;> decide
  rw [command, wake_eq]
  simp only [rowTxBegin, setPhase, clearIdx, perform, mapEnv, record, actionEffect, accept_txlen]
  rw [sendBytes_eq (encode i) _ _ rfl hne (by simp) (by simpa using htx) (by simpa using hlen)]
  simp only [rowTxEnd, rowCmdSettle, setPhase, perform, mapEnv, record, actionEffect, commandTrace, Config.tCmdSettle, Config.tWakeLow,
    Config.tWakeSettle,    List.append_assoc, List.cons_append, List.nil_append, accept_env, accept_addr, BitVec.toNat_zero,
    List.drop_zero, BitVec.ofNat_eq_ofNat]

/-- Bytes written into RXBUF from an index on. -/
def storeAll (rx : Vector Byte 4) (j : Nat) : List Byte → Vector Byte 4
  | [] => rx
  | b :: bs => storeAll (rx.setIfInBounds j b) (j + 1) bs

/-- Into a zero buffer from index 0, the bytes that arrived and then zeros (41_exchange.md R83). -/
theorem storeAll_zero (avail : List Byte) (h : avail.length ≤ 4) :
    storeAll #v[0, 0, 0, 0] 0 avail = pad4 avail := by
  match avail, h with
  | [], _ => rfl
  | [_], _ => rfl
  | [_, _], _ => rfl
  | [_, _, _], _ => rfl
  | [_, _, _, _], _ => rfl
  | _ :: _ :: _ :: _ :: _ :: _, h => exact absurd h (by simp)

/-- Taking one byte, poll included, in one equation (41_exchange.md R82). -/
theorem takeByte_eq (s : State) (b : Byte) (bs : List Byte) (hp : s.phase = .rxPoll) (hq : s.env.rxQueue = b :: bs) :
    rowRxByte (rowRxPoll s) = { s with
      rxbuf := s.rxbuf.setIfInBounds s.idx.toNat b
      idx := s.idx + 1
      env := { s.env with
        rxQueue := bs
        trace := s.env.trace ++ [.bytesAvailable (bs.length + 1), .readByte b] } } := by
  simp only [rowRxPoll, hq, List.length_cons, Nat.zero_lt_succ, if_true, rowRxByte, setPhase, perform, mapEnv, record,
    actionEffect, incIdx, storeRx, List.append_assoc, List.tail_cons, List.cons_append, List.nil_append, ← hp]

/-- The last poll of the drain loop (R82, R21): INIT_MEAS ends, a read goes to CHECK. -/
theorem lastPoll_eq (s : State) (op : OpSel) (ho : s.opsel = op) (hq : s.env.rxQueue = []) :
    rowRxPoll s = { s with
      status := if op = 0 then statusEnded s.status else s.status
      phase := if op = 0 then .idle else .check
      env := { s.env with trace := s.env.trace ++ [.bytesAvailable 0] } } := by
  subst ho
  unfold rowRxPoll
  by_cases h : s.opsel = 0
  · simp [hq, h, perform, mapEnv, record, actionEffect, endOperation]
  · simp only [hq, h, setPhase, perform, mapEnv, record, actionEffect, List.length_nil, lt_self_iff_false, if_false]

/-- The whole drain loop in one equation (R82). -/
theorem drain_eq (avail : List Byte) (op : OpSel) : ∀ (s : State), s.opsel = op → s.phase = .rxPoll → s.env.rxQueue = avail →
    s.idx.toNat + avail.length ≤ 4 →
    drain avail.length s = { s with
      rxbuf := storeAll s.rxbuf s.idx.toNat avail
      idx := s.idx + BitVec.ofNat 3 avail.length
      status := if op = 0 then statusEnded s.status else s.status
      phase := if op = 0 then .idle else .check
      env := { s.env with rxQueue := [], trace := s.env.trace ++ pollTrace avail } } := by
  induction avail with
  | nil =>
    intro s ho _ hq _
    simp only [List.length_nil, drain, lastPoll_eq s op ho hq, storeAll, pollTrace, BitVec.ofNat_eq_ofNat, BitVec.add_zero, hq]
  | cons b bs ih =>
    intro s ho hp hq hl
    have hidx : (s.idx + 1).toNat = s.idx.toNat + 1 := by
      simp only [List.length_cons] at hl
      rw [BitVec.toNat_add]; simp; omega
    have hadd : s.idx + 1 + BitVec.ofNat 3 bs.length = s.idx + BitVec.ofNat 3 (bs.length + 1) := by
      apply BitVec.eq_of_toNat_eq; simp [BitVec.toNat_add]; omega
    rw [List.length_cons, drain, takeByte_eq s b bs hp hq, ih]
    · simp only [hidx, hadd, storeAll, pollTrace, List.append_assoc, List.cons_append, List.nil_append]
    · exact ho
    · exact hp
    · rfl
    · simp only [hidx]; simp only [List.length_cons] at hl; omega

/-- Opening the read, for a transport that returns (R81). -/
theorem openRead_bytes (s : State) (avail : List Byte) (ha : readAnswer s = .bytes avail) (hp : s.env.readPending = false) :
    openRead s = { s with
      idx := 0
      phase := .rxPoll
      env := { consumeAnswer s.env with
        rxQueue := avail
        readPending := false
        trace := s.env.trace ++ [.beginRead s.addr s.rxlen.toNat] } } := by
  simp only [openRead, ha, issueRead, hp, Bool.false_eq_true, if_false, setPhase, clearIdx, mapEnv, perform, record,
    actionEffect, deliver, consumeAnswer]
  rcases s.env.answers <;> rfl

/-- Opening the read, for a transport that never returns (R87): the block stays in RX_BEGIN. -/
theorem openRead_never (s : State) (ha : readAnswer s = .never) (hp : s.env.readPending = false) :
    openRead s = { s with
      env := { s.env with
        readPending := true
        trace := s.env.trace ++ [.beginRead s.addr s.rxlen.toNat] } } := by
  simp only [openRead, ha, issueRead, hp, Bool.false_eq_true, if_false, mapEnv, perform, record, actionEffect]

/-- A read that is open and never returns: nothing changes any more (R87). -/
theorem openRead_pending (s : State) (ha : readAnswer s = .never) (hp : s.env.readPending = true) :
    openRead s = s := by
  simp only [openRead, ha, issueRead, hp, if_true]

/-- The read transaction and what follows, for a transport that returns. -/
theorem respond_bytes (f : State → State) (s : State) (op : OpSel) (avail : List Byte) (ho : s.opsel = op) (ha : readAnswer s = .bytes avail)
    (hp : s.env.readPending = false) (hl : avail.length ≤ 4) :
    respond f s = f { s with
      rxbuf := storeAll s.rxbuf 0 avail
      idx := BitVec.ofNat 3 avail.length
      status := if op = 0 then statusEnded s.status else s.status
      phase := if op = 0 then .idle else .check
      env := { consumeAnswer s.env with
        rxQueue := []
        readPending := false
        trace := s.env.trace ++ .beginRead s.addr s.rxlen.toNat :: pollTrace avail } } := by
  simp only [respond, openRead_bytes s avail ha hp, Bool.false_eq_true, if_false]
  rw [drain_eq avail op]
  · simp only [BitVec.ofNat_eq_ofNat, BitVec.toNat_ofNat, BitVec.zero_add, Nat.zero_mod, List.append_assoc,
      List.cons_append, List.nil_append]
  · exact ho
  · rfl
  · rfl
  · simpa using hl

/-- The read transaction for a transport that never returns. -/
theorem respond_never (f : State → State) (s : State) (ha : readAnswer s = .never) (hp : s.env.readPending = false) :
    respond f s = { s with
      env := { s.env with
        readPending := true
        trace := s.env.trace ++ [.beginRead s.addr s.rxlen.toNat] } } := by
  simp only [respond, openRead_never s ha hp, if_true]

/-- VALIDATE, then DECODE or FAIL, in one equation (R107, R112). -/
theorem validateAndDecode_eq (s : State) :
    validateAndDecode s =
      if frameValid s.rxbuf then
        { s with
          chk := checksum s.rxbuf
          mag := magnitude s.rxbuf
          res := { kind := .value, mag := magnitude s.rxbuf, q := s.divsel }
          status := statusEnded s.status
          phase := .idle }
      else
        { s with
          chk := checksum s.rxbuf
          res := { kind := .error, mag := 0, q := 0 }
          status := statusFailed
          phase := .idle } := by
  by_cases h : frameValid s.rxbuf <;>
    simp [validateAndDecode, h, rowCheck, rowDecode, rowFail, endOperation, raiseChecksumMismatch]

/-- A free answer keeps to the transport's contract (41_exchange.md R84). -/
theorem freeAnswerFor_withinContract (d n : Nat) : (freeAnswerFor d n).withinContract n = true := by
  unfold freeAnswerFor
  split
  · simp [Answer.withinContract]
  · split <;> simp [Answer.withinContract]

/-- The answer the block gets keeps to the contract unless the step is refused. -/
theorem readAnswer_withinContract (s : State) (h : overDelivers s = false) :
    (readAnswer s).withinContract s.rxlen.toNat = true := by
  unfold overDelivers at h
  unfold readAnswer
  split at h
  · simpa using h
  · exact freeAnswerFor_withinContract _ _

end Sys2Proof.Machine
end

