-- ==== Sys2Proof/Laws/PerInstr.lean ====
section
/-! SUPPORT. What holds of every operation as syntax: its frame is well formed and as long as its table row says. -/

namespace Sys2Proof.Laws.EncodedFrame

/-- The command frame passes every check of WellFormed, its first byte is the opcode of its class (30_encoding.md R59), its
length is `TXLEN` (R65), and the decoder gives the operation back. -/
def Statement (i : Instr) : Prop :=
  i.wellFormed = true ∧ (encode i).head? = some (if i = .initMeas then 0x11 else 0x22) ∧
  (encode i).length = (Machine.tableTxLen i).toNat ∧ decode (encode i) = .ok (i, [])

theorem initMeas : Statement .initMeas := ⟨by decide, rfl, rfl, rfl⟩

theorem readCo2 : Statement .readCo2 := ⟨by decide, rfl, rfl, rfl⟩

theorem readTemp : Statement .readTemp := ⟨by decide, rfl, rfl, rfl⟩

theorem readRh : Statement .readRh := ⟨by decide, rfl, rfl, rfl⟩

end Sys2Proof.Laws.EncodedFrame
end

