-- ==== Sys2Proof/Laws/Rows.lean ====
section
/-! SUPPORT. Runs of the phase table: how they compose, and the write loop, the drain loop and the whole command as runs. -/

namespace Sys2Proof.Machine

/-- A run of any machine whose first step answers a state goes on from it. -/
theorem coreRun_next (M : Host.Core) (n : Nat) (s t : M.State) (h : M.step s = .next t) : M.run (n + 1) s = M.run n t := by
  simp [Host.Core.run, h]

/-- A run of any machine whose first step is refused is refused. -/
theorem coreRun_refused (M : Host.Core) (n : Nat) (s : M.State) (r : M.Refusal) (h : M.step s = .refused r) :
    M.run (n + 1) s = .refused r := by
  simp [Host.Core.run, h]

/-- One row, then the rest. -/
theorem phaseRun_cons {n : Nat} {s t : State} (h : phaseStep s = .next t) : phaseRun (n + 1) s = phaseRun n t := by
  simp [phaseRun, h]

/-- A run that ends in a state goes on from it. -/
theorem phaseRun_append {m n : Nat} : ∀ {s t : State}, phaseRun m s = .next t → phaseRun (m + n) s = phaseRun n t := by
  induction m with
  | zero => intro s t h; cases h; rw [Nat.zero_add]
  | succ m ih =>
    intro s t h
    rw [show m + 1 + n = (m + n) + 1 by omega, phaseRun]
    rw [phaseRun] at h
    split at h
    · exact ih h
    · cases h
    · cases h

/-- What every row keeps, a run keeps. -/
theorem phaseRun_keeps (P : State → Prop) (hP : ∀ s t, P s → phaseStep s = .next t → P t) (n : Nat) :
    ∀ {s t : State}, P s → phaseRun n s = .next t → P t := by
  induction n with
  | zero => intro s t hs h; cases h; exact hs
  | succ n ih =>
    intro s t hs h
    rw [phaseRun] at h
    split at h
    · exact ih (hP _ _ hs ‹_›) h
    · cases h
    · cases h

/-- The write loop of R79 as rows of TX_BYTE. -/
theorem phaseRun_sendBytes (n : Nat) : ∀ s : State, s.phase = .txByte → s.idx.toNat + n = s.txlen.toNat → s.txlen.toNat ≤ 5 →
    phaseRun n s = .next (sendBytes n s) := by
  induction n with
  | zero => intro s _ _ _; rfl
  | succ n ih =>
    intro s hp hn hl
    have h5 : phaseStep s = .next (rowTxByte s) := by
      simp only [phaseStep, hp, stepTxByte, txIndexOk, decide_eq_true_eq]
      rw [if_pos (by omega)]
    rw [phaseRun_cons h5, sendBytes]
    have hlt : (s.idx + 1).toNat = s.idx.toNat + 1 := by rw [BitVec.toNat_add]; simp; omega
    rcases Nat.eq_zero_or_pos n with rfl | hpos
    · rfl
    · refine ih _ ?_ ?_ ?_
      · have : s.idx + 1 < s.txlen := by rw [BitVec.lt_def]; omega
        show phaseAfterByte (s.idx + 1) s.txlen = _
        rw [phaseAfterByte, if_pos this]
      · show (s.idx + 1).toNat + n = s.txlen.toNat
        omega
      · simpa [rowTxByte] using hl

/-- The drain loop of R82 as rows of RX_POLL and RX_BYTE. -/
theorem phaseRun_drain (avail : List Byte) : ∀ s : State, s.phase = .rxPoll → s.env.rxQueue = avail →
    s.idx.toNat + avail.length ≤ s.rxlen.toNat → s.rxlen.toNat ≤ 4 →
    phaseRun (2 * avail.length + 1) s = .next (drain avail.length s) := by
  induction avail with
  | nil => intro s hp hq hl h4; simp [phaseRun, phaseStep, hp, drain]
  | cons b bs ih =>
    intro s hp hq hl h4
    simp only [List.length_cons] at hl ⊢
    have h1 : phaseStep s = .next (rowRxPoll s) := by simp [phaseStep, hp]
    have hph : (rowRxPoll s).phase = .rxByte := by simp [rowRxPoll, hq]
    have h2 : phaseStep (rowRxPoll s) = .next (rowRxByte (rowRxPoll s)) := by
      have hq' : (rowRxPoll s).env.rxQueue = b :: bs := by simp [rowRxPoll, hq]
      have : rxIndexOk (rowRxPoll s) = true := by simp [rowRxPoll, hq, rxIndexOk]; omega
      simp [phaseStep, hph, stepRxByte, hq', this]
    rw [show 2 * (bs.length + 1) + 1 = (2 * bs.length + 1) + 1 + 1 by omega, phaseRun_cons h1, phaseRun_cons h2, drain]
    have hlt : (s.idx + 1).toNat = s.idx.toNat + 1 := by rw [BitVec.toNat_add]; simp; omega
    rw [takeByte_eq s b bs hp hq]
    refine ih _ hp rfl ?_ h4
    simp only [hlt]; omega

/-- The six rows of WAKE (R70). -/
theorem phaseRun_wake (s : State) (hp : s.phase = .wakeDisable) : phaseRun 6 s = .next (wake s) := by
  simp only [phaseRun, phaseStep, hp]; rfl

/-- WAKE, the write transaction and the settle delay of an accepted operation, as rows (R78 to R80). -/
theorem phaseRun_command (i : Instr) (s : State) :
    phaseRun (9 + (encode i).length) (accept i s) = .next (command (accept i s)) := by
  have htn : (tableTxLen i).toNat = (encode i).length := by cases i <;> rfl
  have htl : (tableTxLen i).toNat ≤ 5 := by cases i <;> decide
  have hne : (encode i).length ≠ 0 := by cases i <;> decide
  have hbytes : ∀ j, j < (tableTxLen i).toNat → ((tableFrame i)[j]?).getD 0 = (encode i).getD j 0 := by
    cases i <;> decide
  have h0 : phaseRun 1 (wake (accept i s)) = .next (rowTxBegin (wake (accept i s))) := by
    have : (wake (accept i s)).phase = .txBegin := by rw [wake_eq]
    simp [phaseRun, phaseStep, this]
  have h1 := phaseRun_sendBytes (encode i).length (rowTxBegin (wake (accept i s))) rfl
    (by simp [rowTxBegin, wake_eq, htn]) (by simp [rowTxBegin, wake_eq, htl])
  have hph : (sendBytes (encode i).length (rowTxBegin (wake (accept i s)))).phase = .txEnd := by
    rw [sendBytes_eq (encode i) _ _ rfl hne (by simp [rowTxBegin, wake_eq, htn])
      (by simpa [rowTxBegin, wake_eq] using hbytes) (by simp [rowTxBegin, wake_eq, htn])]
  have e : command (accept i s) =
      rowCmdSettle (rowTxEnd (sendBytes (encode i).length (rowTxBegin (wake (accept i s))))) := by
    have : (wake (accept i s)).txlen.toNat = (encode i).length := by rw [wake_eq]; exact htn
    rw [command]; simp only [this]
  rw [show 9 + (encode i).length = 6 + (1 + ((encode i).length + 2)) by omega,
    phaseRun_append (phaseRun_wake (accept i s) rfl), phaseRun_append h0, phaseRun_append h1, e]
  generalize sendBytes _ _ = u at hph
  simp only [phaseRun, phaseStep, hph]; rfl

end Sys2Proof.Machine
end

