-- ==== Sys2Proof/Laws/Words.lean ====
section
/-! SUPPORT. The byte pair, the address byte and the checksum as numbers. -/

namespace Sys2Proof

/-- Appending is multiplying and adding. -/
theorem append_toNat {m n : Nat} (x : BitVec m) (y : BitVec n) :
    (x ++ y).toNat = x.toNat * 2 ^ n + y.toNat := by
  rw [BitVec.toNat_append, ← Nat.shiftLeft_add_eq_or_of_lt y.isLt, Nat.shiftLeft_eq]

/-- `{hi, lo}` is `256 * hi + lo` (43_decode.md R96). -/
theorem bePair_toNat (hi lo : Byte) : (bePair hi lo).toNat = 256 * hi.toNat + lo.toNat := by
  have h : (bePair hi lo).toNat = hi.toNat * 2 ^ 8 + lo.toNat := append_toNat hi lo
  omega

/-- A pair determines its bytes. -/
theorem bePair_inj {hi lo a b : Byte} (h : bePair hi lo = bePair a b) : hi = a ∧ lo = b := by
  have e := congrArg BitVec.toNat h
  rw [bePair_toNat, bePair_toNat] at e
  constructor <;> apply BitVec.eq_of_toNat_eq <;> omega

namespace Machine

/-- The checksum as a number: the sum mod 256 (42_validate.md R91). -/
theorem checksum_toNat (rx : Vector Byte 4) :
    (checksum rx).toNat = (rx[0].toNat + rx[1].toNat + rx[2].toNat) % 256 := by
  simp only [checksum, BitVec.toNat_add]; omega

/-- The verdict as an equation of numbers (R90). -/
theorem frameValid_iff (rx : Vector Byte 4) :
    frameValid rx = true ↔ (rx[0].toNat + rx[1].toNat + rx[2].toNat) % 256 = rx[3].toNat := by
  rw [frameValid, beq_iff_eq, ← BitVec.toNat_inj, checksum_toNat]

/-- `pad4` of the bytes that arrived, byte by byte (44_operations.md R112). -/
theorem pad4_getElem (avail : List Byte) (j : Nat) (h : j < 4) : (pad4 avail)[j] = avail.getD j 0 := by
  match j, h with
  | 0, _ => rfl
  | 1, _ => rfl
  | 2, _ => rfl
  | 3, _ => rfl

end Machine

end Sys2Proof
end

