-- ==== Sys2Proof/Tests/Slice0.lean ====
section
/-! SUPPORT. Tests of the model by its author, each expected value from spec/ (the vector or example is named), and one witness
for every obligation that has hypotheses: a concrete state that meets all of them together. -/

namespace Sys2Proof.Tests

open Sys2Proof.Machine

/-! ### Helpers -/

/-- V-R1: the reset state with `addr_cfg` 0x68, and what the environment is going to answer. -/
def fresh (answers : List Answer) : State :=
  { State.resetWith 0x68 with env := { Env.reset with answers := answers } }

/-- The same with a start on the port. -/
def started (sel : OpSel) (answers : List Answer) : State :=
  { State.resetWith 0x68 with env := { Env.reset with answers := answers, starts := [sel] } }

/-- A reset state put in the middle of an operation: accepted, and then in the phase named. -/
def running (i : Instr) (p : Phase) (answers : List Answer) : State := setPhase p (accept i (fresh answers))

/-- A running state with a response already in RXBUF. -/
def received (i : Instr) (p : Phase) (rx : Vector Byte 4) : State := { running i p [] with rxbuf := rx, idx := 4 }

/-- The phase table from a state, keeping only what a test looks at. -/
def after {α : Type} (o : Host.Outcome State Fault Refusal) (view : State → α) : Option α :=
  match o with
  | .next t => some (view t)
  | _ => none

/-! ### WellFormed: one ill-formed term for each check -/

theorem test_frame_of_example : frameOk [0x22, 0x00, 0x08, 0x2A] = true := by decide

/-- R59: opcode 0x22 announces four bytes; the sum and the pointer are right. -/
theorem test_refuses_length : frameOk [0x22, 0x00, 0x08, 0x00, 0x2A] = false ∧
    frameChecksumOk [0x22, 0x00, 0x08, 0x00, 0x2A] = true ∧ framePointerOk [0x22, 0x00, 0x08, 0x00, 0x2A] = true := by decide

/-- R61: the sum is 0x2A. -/
theorem test_refuses_checksum : frameOk [0x22, 0x00, 0x08, 0x2B] = false ∧
    frameLengthOk [0x22, 0x00, 0x08, 0x2B] = true ∧ framePointerOk [0x22, 0x00, 0x08, 0x2B] = true := by decide

/-- R42: 0x0800 (the pointer with its bytes swapped) is not one of the four. -/
theorem test_refuses_pointer : frameOk [0x22, 0x08, 0x00, 0x2A] = false ∧
    frameLengthOk [0x22, 0x08, 0x00, 0x2A] = true ∧ frameChecksumOk [0x22, 0x08, 0x00, 0x2A] = true := by decide

/-- R84 and V-X12: five bytes to a read of four; four are within the contract. -/
theorem test_refuses_answer : Answer.withinContract 4 (.bytes [1, 2, 3, 4, 5]) = false ∧
    Answer.withinContract 4 (.bytes [1, 2, 3, 4]) = true ∧ Answer.withinContract 2 .never = true := by decide

/-! ### Decode: words written out from 30_encoding.md R57, R58, R65 -/

/-- CMD4: opcode 0010_0010, pointer 0000_0000_0000_1000, checksum 0010_1010. -/
theorem test_decode_readCo2 : decode [0b00100010, 0b00000000, 0b00001000, 0b00101010] = .ok (.readCo2, []) := by rfl

/-- CMD4: pointer 0000_0000_0001_0010, checksum 0011_0100; a byte after the frame is handed back. -/
theorem test_decode_readTemp :
    decode [0b00100010, 0b00000000, 0b00010010, 0b00110100, 0xFF] = .ok (.readTemp, [0xFF]) := by rfl

/-- CMD4: pointer 0000_0000_0001_0100, checksum 0011_0110. -/
theorem test_decode_readRh : decode [0b00100010, 0b00000000, 0b00010100, 0b00110110] = .ok (.readRh, []) := by rfl

/-- CMD5: opcode 0001_0001, pointer 0000_0000_0110_0000, data 0011_0101, checksum 1010_0110. -/
theorem test_decode_initMeas :
    decode [0b00010001, 0b00000000, 0b01100000, 0b00110101, 0b10100110] = .ok (.initMeas, []) := by rfl

theorem test_decode_rejects_opcode : decode [0x33, 0x00, 0x08, 0x3B] = .error (.unknownOpcode 0x33) := by rfl

theorem test_decode_rejects_pointer : decode [0x22, 0x00, 0x09, 0x2B] = .error (.unknownPointer 0x0009) := by rfl

/-- The initiate opcode with a read's pointer. -/
theorem test_decode_rejects_crossed_pointer : decode [0x11, 0x00, 0x08, 0x35, 0x4E] = .error (.unknownPointer 0x0008) := by rfl

theorem test_decode_rejects_checksum : decode [0x22, 0x00, 0x08, 0x2B] = .error (.wrongChecksum 0x2B) := by rfl

theorem test_decode_rejects_data : decode [0x11, 0x00, 0x60, 0x36, 0xA7] = .error (.wrongData 0x36) := by rfl

theorem test_decode_rejects_short : decode [0x11, 0x00, 0x60, 0x35] = .error .truncated := by rfl

/-- The opcode table's numbers, byte 0 most significant. -/
theorem test_table_words : decodeTableWord 40 0x11006035A6 = some .initMeas ∧ decodeTableWord 32 0x2200082A = some .readCo2 ∧
    decodeTableWord 32 0x2A080022 = none ∧ decodeTableWord 40 0x2200082A00 = none := by decide

/-- The address byte of 0x68 is 0xD0 for a write and 0xD1 for a read (R56). -/
theorem test_address_byte : addrByte 0x68 .write = 0xD0 ∧ addrByte 0x68 .read = 0xD1 := by decide

/-! ### The operations: vectors of 95_test_vectors.md 2.5 -/

/-- V-O1: RES stays NONE, ERR 0, RXBUF zero filled, 20 actions. -/
theorem test_initMeas_V_O1 :
    after (exec .initMeas (fresh [.bytes [0xAB, 0xCD]]))
        (fun t => (t.res.kind, t.status, t.rxbuf, t.txbuf, t.env.trace.length)) =
      some (.none, ⟨false, true, false⟩, #v[0xAB, 0xCD, 0, 0], #v[0x11, 0x00, 0x60, 0x35, 0xA6], 20) := by decide

/-- V-X9: one byte, 18 actions, IDX 1, CHK not written. -/
theorem test_initMeas_short :
    after (exec .initMeas { fresh [.bytes [0x5A]] with chk := 0x77 }) (fun t => (t.rxbuf, t.idx, t.chk, t.env.trace.length)) =
      some (#v[0x5A, 0, 0, 0], 1, 0x77, 18) := by decide

/-- V-O3 and E5: the value 1000 and the whole trace of R88. -/
theorem test_readCo2_V_O3 :
    after (exec .readCo2 (fresh [.bytes [0x02, 0x03, 0xE8, 0xED]])) (fun t => (t.res, t.status.err, t.env.trace)) =
      some (⟨.value, 0x03E8, 0⟩, false,
        [.engineDisable, .sdaLow, .delay 1, .sdaHigh, .engineEnable, .delay 1,
         .beginWrite 0x68, .writeByte 0x22, .writeByte 0x00, .writeByte 0x08, .writeByte 0x2A, .endWrite,
         .delay 20, .beginRead 0x68 4,
         .bytesAvailable 4, .readByte 0x02, .bytesAvailable 3, .readByte 0x03,
         .bytesAvailable 2, .readByte 0xE8, .bytesAvailable 1, .readByte 0xED, .bytesAvailable 0]) := by decide

/-- V-O4 and E6: the sentinel; CHK holds the computed sum and MAG is not written. -/
theorem test_readCo2_V_O4 :
    after (exec .readCo2 { fresh [.bytes [0x02, 0x03, 0xE8, 0xFF]] with mag := 0x1234 })
        (fun t => (t.res, t.status, t.chk, t.mag)) =
      some (⟨.error, 0, 0⟩, ⟨false, true, true⟩, 0xED, 0x1234) := by decide

/-- V-O10: unsigned, never sign-extended. -/
theorem test_readTemp_V_O10 :
    after (exec .readTemp (fresh [.bytes [0x00, 0xFF, 0x38, 0x37]])) (fun t => (t.res, t.status.err, t.chk)) =
      some (⟨.value, 0xFF38, 1⟩, false, 0x37) := by decide

/-- E7 and V-X2 with V-R4: no byte arrives, the stale frame does not leak, the value is 0 and no error. -/
theorem test_readTemp_absent :
    after (exec .readTemp { fresh [.bytes []] with rxbuf := #v[0x00, 0x09, 0xE9, 0xF2] })
        (fun t => (t.res, t.status.err, t.rxbuf, t.env.trace.length)) =
      some (⟨.value, 0, 1⟩, false, #v[0, 0, 0, 0], 15) := by decide

/-- V-O11: 45.12. -/
theorem test_readRh_V_O11 :
    after (exec .readRh (fresh [.bytes [0x00, 0x11, 0xA0, 0xB1]])) (fun t => (t.res, t.status.err)) =
      some (⟨.value, 0x11A0, 1⟩, false) := by decide

/-- V-O13: three bytes, zero padded, fail the relation. -/
theorem test_readRh_V_O13 :
    after (exec .readRh (fresh [.bytes [0x00, 0x11, 0xA0]])) (fun t => (t.res, t.status.err, t.chk, t.idx)) =
      some (⟨.error, 0, 0⟩, true, 0xB1, 3) := by decide

/-- V-X10: the read that never returns, 14 actions issued. -/
theorem test_never_returns :
    after (exec .readRh (fresh [.never])) (fun t => (t.phase, t.status, t.env.trace.length)) =
      some (.rxBegin, ⟨true, false, false⟩, 14) := by decide

/-- V-X12 and R24: refused by name. -/
theorem test_refusals :
    exec .readCo2 (fresh [.bytes [1, 2, 3, 4, 5]]) = .refused .overDelivery ∧
    exec .initMeas (fresh [.bytes [1, 2, 3]]) = .refused .overDelivery ∧
    exec .readCo2 (running .readRh .txEnd []) = .refused .startWhileBusy := ⟨rfl, rfl, rfl⟩

/-- 95_test_vectors.md 2.5: 26 steps of the sequencer for V-O3, the accept included. -/
theorem test_rows_V_O3 :
    after (phaseRun 26 (started 1 [.bytes [0x02, 0x03, 0xE8, 0xED]])) (fun t => (t.phase, t.res, t.status.done)) =
      some (.idle, ⟨.value, 0x03E8, 0⟩, true) := by decide

/-- Placing a table word makes the very next step accept its operation (R24). -/
theorem test_withFetchWord :
    after (step ((fresh [.bytes []]).withFetchWord 40 0x11006035A6)) (fun t => (t.phase, t.status, t.txbuf, t.rxlen)) =
      some (.wakeDisable, ⟨true, false, false⟩, #v[0x11, 0x00, 0x60, 0x35, 0xA6], 2) := by decide

/-- 95_test_vectors.md 2.5: V-O2 takes 17 steps, the accept included; the host sees busy after 16. -/
theorem test_steps_V_O2 :
    after (Host.Core.run core 17 (started 0 [.bytes []])) (fun t : State => (t.phase, t.status, t.env.trace.length)) =
      some (.idle, ⟨false, true, false⟩, 16) ∧
    after (Host.Core.run core 16 (started 0 [.bytes []])) (fun t : State => t.status.busy) = some true := by decide

/-! ### Checksum and conversion -/

/-- V-V5, V-V6, V-V7, V-V9, V-V14 and V-V16. -/
theorem test_checksums :
    frameValid #v[0xC8, 0x64, 0x32, 0x5E] = true ∧ frameValid #v[0xC8, 0x64, 0x32, 0xFF] = false ∧
    frameValid #v[0xFF, 0xFF, 0xFF, 0xFD] = true ∧ frameValid #v[0x80, 0x80, 0x00, 0x00] = true ∧
    frameValid #v[0x00, 0x09, 0xE9, 0xF1] = false ∧ frameValid #v[0x03, 0x02, 0xE8, 0xED] = true := by decide

/-- 95_test_vectors.md section 3, binary32. -/
theorem test_float32 :
    floatOf Config.binary32 ⟨.value, 65535, 0⟩ = some 0x477FFF00 ∧ floatOf Config.binary32 ⟨.value, 1, 1⟩ = some 0x3C23D70A ∧
    floatOf Config.binary32 ⟨.value, 59, 1⟩ = some 0x3F170A3D ∧ floatOf Config.binary32 ⟨.value, 2537, 1⟩ = some 0x41CAF5C3 ∧
    floatOf Config.binary32 ⟨.value, 65535, 1⟩ = some 0x4423D666 ∧ floatOf Config.binary32 ⟨.error, 0, 0⟩ = some 0xBF800000 ∧
    floatOf Config.binary32 ⟨.value, 0, 1⟩ = some 0 ∧ floatOf Config.binary32 ⟨.none, 0, 0⟩ = none := by decide

/-- 95_test_vectors.md section 3, binary64. -/
theorem test_float64 :
    floatOf Config.binary64 ⟨.value, 1, 1⟩ = some 0x3F847AE147AE147B ∧
    floatOf Config.binary64 ⟨.value, 2537, 1⟩ = some 0x40395EB851EB851F ∧
    floatOf Config.binary64 ⟨.error, 0, 0⟩ = some 0xBFF0000000000000 := by decide

/-- V-D16 and the sentinel as exact numbers. -/
theorem test_real : realOf ⟨.value, 0x09E9, 1⟩ = some (2537 / 100) ∧ realOf ⟨.error, 0, 0⟩ = some (-1) ∧
    realOf ⟨.none, 0, 0⟩ = none := by
  refine ⟨?_, rfl, rfl⟩
  simp [realOf, divisor]

/-- R100: 0x41CAF5C3 is 25.3700008392333984375. -/
theorem test_float_value : floatValue Config.binary32 0x41CAF5C3 = some (25.3700008392333984375 : Rat) := by
  simp [floatValue, Config.binary32, floatBias, floatWidth]
  norm_num

/-- The host port of V-O3 shows `F(RES)`. -/
theorem test_port : after (exec .readCo2 (fresh [.bytes [0x02, 0x03, 0xE8, 0xED]])) (fun t => (hostPorts t).resF) =
    some (some 0x447A0000) := by decide

/-! ### Witnesses: hypotheses that are met -/

/-- The invariant of a state in the middle of a drain: one byte taken, three to come. -/
def midDrain : State :=
  { running .readTemp .rxPoll [] with
    idx := 1
    rxbuf := #v[0x7F, 0, 0, 0]
    env := { Env.reset with
      rxQueue := [0x09, 0xE9, 0x71]
      trace := commandTrace 0x68 [0x22, 0x00, 0x12, 0x34] ++ [.beginRead 0x68 4, .bytesAvailable 4, .readByte 0x7F] } }

theorem midDrain_inv : midDrain.Inv where
  busy_iff := by decide
  done_idle := by decide
  err_iff := by decide
  busy_none := by decide
  res_zero := by decide
  init_none := by decide
  value_valid := by decide
  decode_valid := by decide
  fail_invalid := by decide
  chk_sum := by decide
  judged_read := by decide
  txlen_range := by decide
  rxlen_range := by decide
  row_loaded := by decide
  idx_writing := by decide
  idx_draining := by decide
  byte_there := by decide
  zero_before := by decide
  zero_beyond := by decide
  short_zero := by decide
  engine_window := by decide
  line_window := by decide
  pending_phase := by decide

/-- The invariant of a state between operations with a start on the port. -/
theorem started_inv : (started 3 [.bytes [0x00, 0x11, 0xA0, 0xB1]]).Inv where
  busy_iff := by decide
  done_idle := by decide
  err_iff := by decide
  busy_none := by decide
  res_zero := by decide
  init_none := by decide
  value_valid := by decide
  decode_valid := by decide
  fail_invalid := by decide
  chk_sum := by decide
  judged_read := by decide
  txlen_range := by decide
  rxlen_range := by decide
  row_loaded := by decide
  idx_writing := by decide
  idx_draining := by decide
  byte_there := by decide
  zero_before := by decide
  zero_beyond := by decide
  short_zero := by decide
  engine_window := by decide
  line_window := by decide
  pending_phase := by decide

/-- The invariant before a read is opened, with an answer of the greatest length. -/
theorem opening_inv : (running .initMeas .rxBegin [.bytes [0xAB, 0xCD]]).Inv where
  busy_iff := by decide
  done_idle := by decide
  err_iff := by decide
  busy_none := by decide
  res_zero := by decide
  init_none := by decide
  value_valid := by decide
  decode_valid := by decide
  fail_invalid := by decide
  chk_sum := by decide
  judged_read := by decide
  txlen_range := by decide
  rxlen_range := by decide
  row_loaded := by decide
  idx_writing := by decide
  idx_draining := by decide
  byte_there := by decide
  zero_before := by decide
  zero_beyond := by decide
  short_zero := by decide
  engine_window := by decide
  line_window := by decide
  pending_phase := by decide

/-- ResetRegisterValues. -/
theorem witness_ResetRegisterValues : fresh [] = State.resetWith 0x68 := by decide

/-- StepKeepsInvariant and StepKeepsActionOrder, AddressNeverChanges, TraceOnlyGrows: inside an operation. -/
theorem witness_StepKeeps_row :
    midDrain.Inv ∧ midDrain.traceOk ∧ step midDrain = .next (rowRxPoll midDrain) :=
  ⟨midDrain_inv, by unfold State.traceOk; decide, rfl⟩

/-- The same between operations: the step accepts the start. -/
theorem witness_StepKeeps_operation :
    (started 3 [.bytes [0x00, 0x11, 0xA0, 0xB1]]).Inv ∧ (started 3 [.bytes [0x00, 0x11, 0xA0, 0xB1]]).traceOk ∧
    ∃ t, step (started 3 [.bytes [0x00, 0x11, 0xA0, 0xB1]]) = .next t :=
  ⟨started_inv, rfl, _, rfl⟩

/-- StepRunsTheStartedOperation and AcceptStep, for every code; exec answers or refuses (test_refusals) as their cases ask. -/
theorem witness_started : ∀ sel : OpSel, (started sel []).phase = .idle ∧ (started sel []).status.busy = false ∧
    (started sel []).env.starts = [sel] := by decide

/-- StepRunsThePlacedWord. -/
theorem witness_StepRunsThePlacedWord : decodeTableWord 32 0x22001436 = some .readRh := by decide

/-- IdleDoesNothingWithoutStart. -/
theorem witness_IdleDoesNothing : (fresh []).phase = .idle ∧ (fresh []).env.starts = [] := by decide

/-- StepIsOneRow: a step in each of the 17 phases. -/
theorem witness_StepIsOneRow : ∀ p ∈ ([.idle, .wakeDisable, .wakeLow, .wakeHold, .wakeHigh, .wakeEnable, .wakeSettle, .txBegin,
    .txByte, .txEnd, .cmdSettle, .rxBegin, .rxPoll, .rxByte, .check, .decode, .fail] : List Phase),
    (after (step { running .readCo2 p [.bytes []] with
      idx := 0
      env := { Env.reset with answers := [.bytes []], rxQueue := [0x02] } }) State.phase).isSome = true := by decide

/-- DecodeAcceptsOnlyTheFourFrames. -/
theorem witness_DecodeAccepts : decode [0x22, 0x00, 0x14, 0x36, 0x00] = .ok (.readRh, [0x00]) := by rfl

/-- MemoryAccessesExpand, both access shapes. -/
theorem witness_MemoryAccesses : memRead 0x0008 = some .readCo2 ∧ memRead 0x0012 = some .readTemp ∧
    memRead 0x0014 = some .readRh ∧ memRead 0x0060 = none ∧ memWrite 0x0060 0x35 = some .initMeas := by decide

/-- InitMeasResult at both ends of the range of `k`. -/
theorem witness_InitMeasResult : ∀ avail ∈ ([[], [0xAB, 0xCD]] : List (List Byte)),
    (fresh [.bytes avail]).status.busy = false ∧ (fresh [.bytes avail]).env.readPending = false ∧
    (fresh [.bytes avail]).env.answers = [.bytes avail] ∧ avail.length ≤ 2 := by decide

/-- ReadCo2Result, ReadTempResult, ReadRhResult at both ends. -/
theorem witness_ReadResults : ∀ avail ∈ ([[], [0x02, 0x03, 0xE8, 0xED], [0x02, 0x03, 0xE8, 0xFF]] : List (List Byte)),
    (fresh [.bytes avail]).status.busy = false ∧ (fresh [.bytes avail]).env.readPending = false ∧
    (fresh [.bytes avail]).env.answers = [.bytes avail] ∧ avail.length ≤ 4 := by decide

/-- OperationIsItsPhaseRows: the greatest and the least answer, one that never comes, and the free one. -/
theorem witness_OperationIsItsPhaseRows :
    (fresh [.bytes [1, 2]]).status.busy = false ∧ nextAnswer 2 (.bytes [1, 2]) (fresh [.bytes [1, 2]]) ∧
    nextAnswer 4 (.bytes [1, 2, 3, 4]) (fresh [.bytes [1, 2, 3, 4]]) ∧ nextAnswer 4 (.bytes []) (fresh [.bytes []]) ∧
    nextAnswer 4 .never (fresh [.never]) ∧ nextAnswer 4 (freeAnswerFor 0 4) (fresh []) :=
  ⟨rfl, .inl ⟨[], rfl, rfl⟩, .inl ⟨[], rfl, rfl⟩, .inl ⟨[], rfl, rfl⟩, .inl ⟨[], rfl, rfl⟩, .inr ⟨rfl, rfl⟩⟩

/-- OperationsAreIndependentOfHistory: two different histories, the same address and the same answer. -/
theorem witness_History :
    let a : Answer := .bytes [0x00, 0x09, 0xE9, 0xF2]
    let s₂ : State := { fresh [a, .never] with
      rxbuf := #v[1, 2, 3, 4], mag := 0x1111, chk := 0x22, res := ⟨.error, 0, 0⟩, status := ⟨false, true, true⟩ }
    (fresh [a]).ready ∧ s₂.ready ∧ (fresh [a]).addr = s₂.addr ∧ nextAnswer 4 a (fresh [a]) ∧ nextAnswer 4 a s₂ ∧
      fresh [a] ≠ s₂ := by
  refine ⟨⟨rfl, rfl⟩, ⟨rfl, rfl⟩, rfl, .inl ⟨[], rfl, rfl⟩, .inl ⟨[.never], rfl, rfl⟩, ?_⟩
  decide

/-- ReadThatNeverReturnsHangs. -/
theorem witness_Hang : (fresh [.never]).ready ∧ (fresh [.never]).env.answers = [.never] := ⟨⟨rfl, rfl⟩, rfl⟩

/-- FreeAnswerActsAsAListedOne. -/
theorem witness_FreeAnswer : (fresh []).ready ∧ (fresh []).env.answers = [] := ⟨⟨rfl, rfl⟩, rfl⟩

/-- OperationAnswersExactlyWhenAccepted: a busy state; one byte too many for each length; the greatest allowed. -/
theorem witness_OperationAnswers :
    (running .readCo2 .txBegin []).status.busy = true ∧
    ((fresh [.bytes [1, 2, 3]]).status.busy = false ∧ (tableRxLen .initMeas).toNat < [1, 2, 3].length) ∧
    ((fresh [.bytes [1, 2, 3, 4, 5]]).status.busy = false ∧ (tableRxLen .readRh).toNat < [1, 2, 3, 4, 5].length) ∧
    (∀ avail rest, (fresh [.bytes [1, 2, 3, 4]]).env.answers = .bytes avail :: rest →
      avail.length ≤ (tableRxLen .readRh).toNat) := by
  refine ⟨rfl, ⟨rfl, by decide⟩, ⟨rfl, by decide⟩, ?_⟩
  intro avail rest h
  cases h
  decide

/-- OperationsEnd: while a response is drained, and before the read is opened. -/
theorem witness_OperationsEnd :
    (midDrain.Inv ∧ midDrain.phase ≠ .idle ∧ midDrain.phase.beforeRead = false) ∧
    ((running .initMeas .rxBegin [.bytes [0xAB, 0xCD]]).Inv ∧
      (running .initMeas .rxBegin [.bytes [0xAB, 0xCD]]).phase ≠ .idle ∧
      nextAnswer (running .initMeas .rxBegin [.bytes [0xAB, 0xCD]]).rxlen.toNat (.bytes [0xAB, 0xCD])
        (running .initMeas .rxBegin [.bytes [0xAB, 0xCD]])) :=
  ⟨⟨midDrain_inv, by decide, by decide⟩, opening_inv, by decide, .inl ⟨[], rfl, rfl⟩⟩

/-- WakeRows and WakeRowByRow, SettleDelay, ValidateRow, DecodeRow, FailRow: every phase they name. -/
theorem witness_phases : ∀ p ∈ ([.wakeDisable, .wakeLow, .wakeHold, .wakeHigh, .wakeEnable, .wakeSettle, .cmdSettle,
    .check, .decode, .fail] : List Phase), (running .readCo2 p []).phase = p := by decide

/-- WriteTransaction with each legal length. -/
theorem witness_WriteTransaction :
    ((running .readRh .txBegin []).phase = .txBegin ∧ (running .readRh .txBegin []).txlen = 4) ∧
    ((running .initMeas .txBegin []).phase = .txBegin ∧ (running .initMeas .txBegin []).txlen = 5) := by decide

/-- ReadTransaction with each legal length, full and empty answers. -/
theorem witness_ReadTransaction :
    (∀ i ∈ ([.initMeas, .readCo2] : List Instr), (running i .rxBegin [.bytes []]).phase = .rxBegin ∧
      (running i .rxBegin [.bytes []]).env.readPending = false ∧
      ((running i .rxBegin [.bytes []]).rxlen = 2 ∨ (running i .rxBegin [.bytes []]).rxlen = 4)) ∧
    (running .initMeas .rxBegin [.bytes [1, 2]]).rxlen = 2 ∧
    (running .readCo2 .rxBegin [.bytes [1, 2, 3, 4]]).rxlen = 4 := by decide

/-- ValidateRow: both verdicts occur (V-V1, V-V2). -/
theorem witness_ValidateRow :
    after (step (received .readCo2 .check #v[0x02, 0x03, 0xE8, 0xED])) (fun t => (t.phase, t.chk)) = some (.decode, 0xED) ∧
    after (step (received .readCo2 .check #v[0x02, 0x03, 0xE8, 0xFF])) (fun t => (t.phase, t.chk)) = some (.fail, 0xED) := by
  decide

/-- FailRow: a row that leads to FAIL, and one that leads to CHECK. -/
theorem witness_FailRow :
    after (phaseStep (received .readCo2 .check #v[0x02, 0x03, 0xE8, 0xFF])) State.phase = some .fail ∧
    after (phaseStep (received .readCo2 .rxPoll #v[0x02, 0x03, 0xE8, 0xFF])) State.phase = some .check ∧
    after (phaseStep (received .initMeas .rxPoll #v[0x02, 0x03, 0, 0])) State.phase = some .idle := by decide

/-- AllZeroFrameIsAccepted. -/
theorem witness_AllZero : Instr.readRh ≠ .initMeas ∧ (fresh [.bytes []]).ready ∧ (fresh [.bytes []]).env.answers = [.bytes []] :=
  ⟨by decide, ⟨rfl, rfl⟩, rfl⟩

/-- SingleByteErrorIsCaught at every byte (V-V15 is byte 1). -/
theorem witness_SingleByteError : frameValid #v[0x02, 0x03, 0xE8, 0xED] = true ∧
    (∀ j (h : j < 4), (0x13 : Byte) ≠ (#v[0x02, 0x03, 0xE8, 0xED] : Vector Byte 4)[j]) := by decide

/-- RoundTripOfTheMagnitude at 32768 (E4), and so at every magnitude. -/
theorem witness_RoundTrip (m : Half) :
    (received .readCo2 .decode #v[0, m.extractLsb' 8 8, m.extractLsb' 0 8, 0]).phase = .decode ∧
    (received .readCo2 .decode #v[0, m.extractLsb' 8 8, m.extractLsb' 0 8, 0]).divsel = 0 ∧
    (received .readCo2 .decode #v[0, m.extractLsb' 8 8, m.extractLsb' 0 8, 0]).rxbuf[1] = m.extractLsb' 8 8 ∧
    (received .readCo2 .decode #v[0, m.extractLsb' 8 8, m.extractLsb' 0 8, 0]).rxbuf[2] = m.extractLsb' 0 8 :=
  ⟨rfl, rfl, rfl, rfl⟩

/-- The same with the bytes written out: 0x80, 0x00. -/
theorem witness_RoundTrip_32768 : (0x8000 : Half).extractLsb' 8 8 = (0x80 : Byte) ∧
    (0x8000 : Half).extractLsb' 0 8 = (0x00 : Byte) := by decide

/-- FloatViewIsNearestEven: the two kinds it speaks of, and another finite number of the format. -/
theorem witness_FloatView : (Result.mk .value 2537 1).kind ≠ .none ∧ (Result.mk .error 0 0).kind ≠ .none ∧
    floatValue Config.binary32 0x00000000 = some 0 := by
  refine ⟨by decide, by decide, ?_⟩
  simp [floatValue, Config.binary32, floatBias, floatWidth]

/-- HostPortsShowStatusAndResult: two states that differ behind the port only. -/
theorem witness_HostPorts :
    (fresh []).status = { fresh [] with chk := 0x55 }.status ∧ (fresh []).res = { fresh [] with chk := 0x55 }.res ∧
    fresh [] ≠ { fresh [] with chk := 0x55 } := by decide

end Sys2Proof.Tests
end

section
/-! The order of actions at its base case: an empty trace, in IDLE. -/

namespace Sys2Proof.Machine

/-- An empty trace leaves the bus where it was. -/
@[simp] theorem busRun_nil (a : BusAddr) (p : BusPos) : busRun a p [] = some p := rfl

/-- Between operations no action is under way (R86). -/
theorem busPosOf_of_phase_idle {s : State} (hphase : s.phase = .idle) : busPosOf s = .quiet := by
  simp [busPosOf, hphase]

/-- The order of actions starts from an idle block that has performed nothing. -/
theorem traceOk_of_idle_of_trace_nil {s : State} (hphase : s.phase = .idle) (htrace : s.env.trace = []) :
    s.traceOk := by
  rw [State.traceOk, htrace, busRun_nil, busPosOf_of_phase_idle hphase]

@[simp] theorem resetWith_phase (a : BusAddr) : (State.resetWith a).phase = .idle := rfl

@[simp] theorem resetWith_trace (a : BusAddr) : (State.resetWith a).env.trace = [] := rfl

/-- Settles O3: reset leaves the block in IDLE with nothing performed. -/
theorem resetTraceInOrder : Obligations.ResetTraceInOrder := fun a =>
  traceOk_of_idle_of_trace_nil (resetWith_phase a) (resetWith_trace a)

end Sys2Proof.Machine
end

section
/-! SUPPORT. The row relation: everything a step of the machine can do, said once (10_state.md R21, R22). -/

namespace Sys2Proof.Machine

/-- The bytes offered are more than were asked for exactly when the answer that would be read breaks the contract (R84). -/
theorem overDelivers_eq_false_iff (s : State) :
    overDelivers s = false ↔ (readAnswer s).withinContract s.rxlen.toNat = true := by
  refine ⟨readAnswer_withinContract s, fun hcontract => ?_⟩
  cases hlist : s.env.answers with
  | nil => simp [overDelivers, hlist]
  | cons a rest =>
    have hread : readAnswer s = a := by simp [readAnswer, hlist]
    simpa [overDelivers, hlist, hread] using hcontract

/-- An answer is the next one exactly when the read gets it and is not refused for it. -/
theorem nextAnswer_iff (s : State) (a : Answer) :
    nextAnswer s.rxlen.toNat a s ↔ readAnswer s = a ∧ overDelivers s = false := by
  cases hlist : s.env.answers with
  | nil => simp [nextAnswer, readAnswer, overDelivers, hlist]
  | cons b rest =>
    simp only [nextAnswer, readAnswer, overDelivers, hlist, List.cons.injEq, reduceCtorEq, false_and, or_false,
      Bool.not_eq_false']
    constructor
    · rintro ⟨_, ⟨rfl, _⟩, hcontract⟩
      exact ⟨rfl, hcontract⟩
    · rintro ⟨rfl, hcontract⟩
      exact ⟨rest, ⟨rfl, rfl⟩, hcontract⟩

/-- A read that is not answered leaves the block where it is, with `BeginRead` issued (R87). -/
theorem openRead_of_never {s : State} (hread : readAnswer s = .never) : openRead s = issueRead s := by
  simp [openRead, hread]

/-- A read that is answered fills the queue and starts the drain loop (R81). -/
theorem openRead_of_bytes {s : State} {avail : List Byte} (hread : readAnswer s = .bytes avail) :
    openRead s = setPhase .rxPoll (clearIdx (mapEnv (deliver avail) (issueRead s))) := by
  simp [openRead, hread]

/-- `issueRead` changes nothing but the trace and the pending read. -/
theorem issueRead_eq (s : State) :
    issueRead s = mapEnv (fun e => { e with
      readPending := true
      trace := e.trace ++ if e.readPending then [] else [.beginRead s.addr s.rxlen.toNat] }) s := by
  cases hpend : s.env.readPending with
  | false => simp [issueRead, hpend, perform, record, actionEffect, mapEnv]
  | true =>
    have henv : { s.env with readPending := true } = s.env := by rw [← hpend]
    simp [issueRead, hpend, mapEnv, henv]

/-- One row of the phase table, with what its guard has found: `Row s t` when the row of PHASE leads from `s` to `t`. -/
inductive Row (s : State) : State → Prop
  | stay (hphase : s.phase = .idle) (hstarts : s.env.starts = []) : Row s s
  | start (sel : OpSel) (rest : List OpSel) (hphase : s.phase = .idle) (hstarts : s.env.starts = sel :: rest)
      (hfree : s.status.busy = false) :
      Row s (accept (Instr.ofOpSel sel) (mapEnv (fun e => { e with starts := rest }) s))
  | wakeDisable (hphase : s.phase = .wakeDisable) : Row s (setPhase .wakeLow (perform .engineDisable s))
  | wakeLow (hphase : s.phase = .wakeLow) : Row s (setPhase .wakeHold (perform .sdaLow s))
  | wakeHold (hphase : s.phase = .wakeHold) : Row s (setPhase .wakeHigh (perform (.delay Config.tWakeLow) s))
  | wakeHigh (hphase : s.phase = .wakeHigh) : Row s (setPhase .wakeEnable (perform .sdaHigh s))
  | wakeEnable (hphase : s.phase = .wakeEnable) : Row s (setPhase .wakeSettle (perform .engineEnable s))
  | wakeSettle (hphase : s.phase = .wakeSettle) : Row s (setPhase .txBegin (perform (.delay Config.tWakeSettle) s))
  | txBegin (hphase : s.phase = .txBegin) : Row s (setPhase .txByte (clearIdx (perform (.beginWrite s.addr) s)))
  | txByte (hphase : s.phase = .txByte) (hidx : s.idx.toNat < 5) :
      Row s (setPhase (phaseAfterByte (s.idx + 1) s.txlen) (incIdx (perform (.writeByte (txByteAt s)) s)))
  | txEnd (hphase : s.phase = .txEnd) : Row s (setPhase .cmdSettle (perform .endWrite s))
  | cmdSettle (hphase : s.phase = .cmdSettle) : Row s (setPhase .rxBegin (perform (.delay Config.tCmdSettle) s))
  | readHangs (hphase : s.phase = .rxBegin) (hread : readAnswer s = .never) : Row s (issueRead s)
  | readReturns (avail : List Byte) (hphase : s.phase = .rxBegin) (hread : readAnswer s = .bytes avail)
      (hlen : avail.length ≤ s.rxlen.toNat) :
      Row s (setPhase .rxPoll (clearIdx (mapEnv (deliver avail) (issueRead s))))
  | pollByte (b : Byte) (bs : List Byte) (hphase : s.phase = .rxPoll) (hqueue : s.env.rxQueue = b :: bs) :
      Row s (setPhase .rxByte (perform (.bytesAvailable s.env.rxQueue.length) s))
  | pollEnd (hphase : s.phase = .rxPoll) (hqueue : s.env.rxQueue = []) (hinit : s.opsel = 0) :
      Row s (endOperation (perform (.bytesAvailable s.env.rxQueue.length) s))
  | pollCheck (hphase : s.phase = .rxPoll) (hqueue : s.env.rxQueue = []) (hread : s.opsel ≠ 0) :
      Row s (setPhase .check (perform (.bytesAvailable s.env.rxQueue.length) s))
  | takeByte (b : Byte) (bs : List Byte) (hphase : s.phase = .rxByte) (hqueue : s.env.rxQueue = b :: bs)
      (hasked : s.idx.toNat < s.rxlen.toNat) (hbuf : s.idx.toNat < 4) :
      Row s (setPhase .rxPoll (incIdx (storeRx b (perform (.readByte b) s))))
  | check (hphase : s.phase = .check) : Row s (rowCheck s)
  | decode (hphase : s.phase = .decode) : Row s (rowDecode s)
  | fail (hphase : s.phase = .fail) : Row s (raiseChecksumMismatch s)

/-- In IDLE a step is one of the two rows of IDLE. -/
theorem row_of_rowIdle {s t : State} (hphase : s.phase = .idle) (h : rowIdle s = .next t) : Row s t := by
  rcases nextStart_cases s with ⟨hstarts, hnext⟩ | ⟨sel, rest, hstarts, hnext⟩
  · obtain rfl : s = t := by simpa [rowIdle, hnext] using h
    exact .stay hphase hstarts
  · cases hfree : s.status.busy with
    | true => simp [rowIdle, hnext, hfree] at h
    | false =>
      obtain rfl : accept (Instr.ofOpSel sel) (mapEnv (fun e => { e with starts := rest }) s) = t := by
        simpa [rowIdle, hnext, hfree] using h
      exact .start sel rest hphase hstarts hfree

/-- In RX_BEGIN a step waits or starts the drain loop. -/
theorem row_of_stepRxBegin {s t : State} (hphase : s.phase = .rxBegin) (h : stepRxBegin s = .next t) : Row s t := by
  cases hover : overDelivers s with
  | true => simp [stepRxBegin, hover] at h
  | false =>
    obtain rfl : openRead s = t := by simpa [stepRxBegin, hover] using h
    cases hread : readAnswer s with
    | never => rw [openRead_of_never hread]; exact .readHangs hphase hread
    | bytes avail =>
      have hcontract := (overDelivers_eq_false_iff s).mp hover
      rw [openRead_of_bytes hread]
      exact .readReturns avail hphase hread (by simpa [hread, Answer.withinContract] using hcontract)

/-- A poll that finds no byte, of an operation that is validated, leads to CHECK (R82, R94). -/
theorem rowRxPoll_of_read {s : State} (hqueue : s.env.rxQueue = []) (hread : s.opsel ≠ 0) :
    rowRxPoll s = setPhase .check (perform (.bytesAvailable s.env.rxQueue.length) s) := by
  have hempty : ¬ 0 < s.env.rxQueue.length := by simp [hqueue]
  simp only [rowRxPoll, if_neg hempty, if_neg hread]

/-- In RX_POLL a step goes to RX_BYTE, to the end, or to CHECK. -/
theorem row_rowRxPoll {s : State} (hphase : s.phase = .rxPoll) : Row s (rowRxPoll s) := by
  cases hqueue : s.env.rxQueue with
  | cons b bs => simpa [rowRxPoll, hqueue] using Row.pollByte b bs hphase hqueue
  | nil =>
    by_cases hop : s.opsel = 0
    · simpa [rowRxPoll, hqueue, hop] using Row.pollEnd hphase hqueue hop
    · rw [rowRxPoll_of_read hqueue hop]
      exact .pollCheck hphase hqueue hop

/-- In RX_BYTE a step takes the oldest byte. -/
theorem row_of_stepRxByte {s t : State} (hphase : s.phase = .rxByte) (h : stepRxByte s = .next t) : Row s t := by
  cases hqueue : s.env.rxQueue with
  | nil => simp [stepRxByte, hqueue] at h
  | cons b bs =>
    cases hidx : rxIndexOk s with
    | false => simp [stepRxByte, hqueue, hidx] at h
    | true =>
      obtain ⟨hasked, hbuf⟩ : s.idx.toNat < s.rxlen.toNat ∧ s.idx.toNat < 4 := by simpa [rxIndexOk] using hidx
      obtain rfl : setPhase .rxPoll (incIdx (storeRx b (perform (.readByte b) s))) = t := by
        simpa [stepRxByte, hqueue, hidx, rowRxByte] using h
      exact .takeByte b bs hphase hqueue hasked hbuf

/-- In TX_BYTE a step writes the byte at IDX. -/
theorem row_of_stepTxByte {s t : State} (hphase : s.phase = .txByte) (h : stepTxByte s = .next t) : Row s t := by
  by_cases hidx : s.idx.toNat < 5
  · obtain rfl : rowTxByte s = t := by simpa [stepTxByte, txIndexOk, hidx] using h
    exact .txByte hphase hidx
  · simp [stepTxByte, txIndexOk, hidx] at h

/-- Every step that answers is a row. -/
theorem row_of_step {s t : State} (h : step s = .next t) : Row s t := by
  have fixed {u : State} (hu : Row s u) (hut : (.next u : Host.Outcome State Fault Refusal) = .next t) : Row s t := by
    cases hut; exact hu
  cases hphase : s.phase <;> simp only [step, phaseStep, hphase] at h
  case idle => exact row_of_rowIdle hphase h
  case wakeDisable => exact fixed (.wakeDisable hphase) h
  case wakeLow => exact fixed (.wakeLow hphase) h
  case wakeHold => exact fixed (.wakeHold hphase) h
  case wakeHigh => exact fixed (.wakeHigh hphase) h
  case wakeEnable => exact fixed (.wakeEnable hphase) h
  case wakeSettle => exact fixed (.wakeSettle hphase) h
  case txBegin => exact fixed (.txBegin hphase) h
  case txByte => exact row_of_stepTxByte hphase h
  case txEnd => exact fixed (.txEnd hphase) h
  case cmdSettle => exact fixed (.cmdSettle hphase) h
  case rxBegin => exact row_of_stepRxBegin hphase h
  case rxPoll => exact fixed (row_rowRxPoll hphase) h
  case rxByte => exact row_of_stepRxByte hphase h
  case check => exact fixed (.check hphase) h
  case decode => exact fixed (.decode hphase) h
  case fail => exact fixed (.fail hphase) h

/-- Every row is a step that answers. -/
theorem step_of_row {s t : State} (h : Row s t) : step s = .next t := by
  rw [step]
  cases h with
  | stay hphase hstarts => simp [phaseStep, hphase, rowIdle, nextStart, hstarts]
  | start sel rest hphase hstarts hfree => simp [phaseStep, hphase, rowIdle, nextStart, hstarts, hfree]
  | wakeDisable hphase => simp [phaseStep, hphase, rowWakeDisable]
  | wakeLow hphase => simp [phaseStep, hphase, rowWakeLow]
  | wakeHold hphase => simp [phaseStep, hphase, rowWakeHold]
  | wakeHigh hphase => simp [phaseStep, hphase, rowWakeHigh]
  | wakeEnable hphase => simp [phaseStep, hphase, rowWakeEnable]
  | wakeSettle hphase => simp [phaseStep, hphase, rowWakeSettle]
  | txBegin hphase => simp [phaseStep, hphase, rowTxBegin]
  | txByte hphase hidx => simp [phaseStep, hphase, stepTxByte, txIndexOk, hidx, rowTxByte]
  | txEnd hphase => simp [phaseStep, hphase, rowTxEnd]
  | cmdSettle hphase => simp [phaseStep, hphase, rowCmdSettle]
  | readHangs hphase hread =>
    have hover : overDelivers s = false := by simp [overDelivers_eq_false_iff, hread, Answer.withinContract]
    simp [phaseStep, hphase, stepRxBegin, hover, openRead_of_never hread]
  | readReturns avail hphase hread hlen =>
    have hover : overDelivers s = false := by simpa [overDelivers_eq_false_iff, hread, Answer.withinContract] using hlen
    simp [phaseStep, hphase, stepRxBegin, hover, openRead_of_bytes hread]
  | pollByte b bs hphase hqueue => simp [phaseStep, hphase, rowRxPoll, hqueue]
  | pollEnd hphase hqueue hinit => simp [phaseStep, hphase, rowRxPoll, hqueue, hinit]
  | pollCheck hphase hqueue hread => simp only [phaseStep, hphase, rowRxPoll_of_read hqueue hread]
  | takeByte b bs hphase hqueue hasked hbuf =>
    simp [phaseStep, hphase, stepRxByte, rowRxByte, hqueue, rxIndexOk, hasked, hbuf]
  | check hphase => simp [phaseStep, hphase]
  | decode hphase => simp [phaseStep, hphase]
  | fail hphase => simp [phaseStep, hphase, rowFail]

/-- A step that answers is one row of the phase table, and nothing else is. -/
theorem step_eq_next_iff_row {s t : State} : step s = .next t ↔ Row s t := ⟨row_of_step, step_of_row⟩

end Sys2Proof.Machine
end

section
/-! SUPPORT. The invariant, cut into what holds of the loaded operation, what PHASE says of the buffers and the environment, and
what the end of an operation leaves. Each row is then one short argument. -/

namespace Sys2Proof.Machine

/-- The frame registers hold the table row of OPSEL (R13, R53). -/
structure State.RowLoaded (s : State) : Prop where
  txbuf : s.txbuf = tableFrame (Instr.ofOpSel s.opsel)
  txlen : s.txlen = tableTxLen (Instr.ofOpSel s.opsel)
  rxlen : s.rxlen = tableRxLen (Instr.ofOpSel s.opsel)
  divsel : s.divsel = tableDivSel (Instr.ofOpSel s.opsel)

/-- STATUS, RES and the frame registers of a running operation: just as the accept step left them (R24). -/
structure State.Running (s : State) : Prop where
  row : s.RowLoaded
  status : s.status = statusAccepted
  res : s.res = { kind := .none, mag := 0, q := 0 }

/-- What PHASE says of IDX, the response and the environment: the clauses of `State.Inv` that a running operation changes. -/
structure State.PhaseInv (s : State) : Prop where
  decode_valid : s.phase = .decode → frameValid s.rxbuf = true
  fail_invalid : s.phase = .fail → frameValid s.rxbuf = false
  chk_sum : s.phase = .decode ∨ s.phase = .fail → s.chk = checksum s.rxbuf
  judged_read : s.phase.judging = true → s.opsel ≠ 0
  idx_writing : s.phase = .txByte → s.idx.toNat < s.txlen.toNat
  idx_draining : s.phase.draining = true → s.idx.toNat + s.env.rxQueue.length ≤ s.rxlen.toNat
  byte_there : s.phase = .rxByte → s.env.rxQueue ≠ []
  zero_before : s.phase.beforeRead = true → s.rxbuf = #v[0, 0, 0, 0]
  zero_beyond : s.phase.draining = true → ∀ j (h : j < 4), s.idx.toNat ≤ j → s.rxbuf[j] = 0
  short_zero : s.rxlen = 2 → s.rxbuf[2] = 0 ∧ s.rxbuf[3] = 0
  engine_window : s.env.engineOn = !s.phase.engineOff
  line_window : s.env.lineLow = s.phase.lineHeld
  pending_phase : s.env.readPending = true → s.phase = .rxBegin

/-- The environment outside the wake window and with no read open (R73, R87). -/
structure Env.AtRest (e : Env) : Prop where
  engine : e.engineOn = true
  line : e.lineLow = false
  pending : e.readPending = false

/-! ### The table row -/

theorem opSel_ofOpSel (sel : OpSel) : (Instr.ofOpSel sel).opSel = sel := by
  revert sel; decide

theorem ofOpSel_opSel (i : Instr) : Instr.ofOpSel i.opSel = i := by
  cases i <;> rfl

theorem State.RowLoaded.txlen_range {s : State} (h : s.RowLoaded) : s.txlen = 4 ∨ s.txlen = 5 := by
  rw [h.txlen]; cases Instr.ofOpSel s.opsel <;> decide

theorem State.RowLoaded.rxlen_range {s : State} (h : s.RowLoaded) : s.rxlen = 2 ∨ s.rxlen = 4 := by
  rw [h.rxlen]; cases Instr.ofOpSel s.opsel <;> decide

/-- The row is a matter of OPSEL and the four registers it fills. -/
theorem State.RowLoaded.congr {s t : State} (h : s.RowLoaded) (hopsel : t.opsel = s.opsel) (htxbuf : t.txbuf = s.txbuf)
    (htxlen : t.txlen = s.txlen) (hrxlen : t.rxlen = s.rxlen) (hdivsel : t.divsel = s.divsel) : t.RowLoaded where
  txbuf := by rw [htxbuf, hopsel, h.txbuf]
  txlen := by rw [htxlen, hopsel, h.txlen]
  rxlen := by rw [hrxlen, hopsel, h.rxlen]
  divsel := by rw [hdivsel, hopsel, h.divsel]

/-- The accept step loads the row. -/
theorem rowLoaded_accept (i : Instr) (s : State) : (accept i s).RowLoaded where
  txbuf := by simp [ofOpSel_opSel]
  txlen := by simp [ofOpSel_opSel]
  rxlen := by simp [ofOpSel_opSel]
  divsel := by simp [ofOpSel_opSel]

/-! ### The invariant in its parts -/

theorem State.Inv.rowLoaded {s : State} (hinv : s.Inv) (h : s.status.busy = true ∨ s.status.done = true) : s.RowLoaded := by
  obtain ⟨htxbuf, htxlen, hrxlen, hdivsel⟩ := hinv.row_loaded h
  exact ⟨htxbuf, htxlen, hrxlen, hdivsel⟩

/-- Inside an operation STATUS is (1, 0, 0) and RES is empty (R19, R20). -/
theorem State.Inv.running {s : State} (hinv : s.Inv) (hphase : s.phase ≠ .idle) : s.Running := by
  have hbusy : s.status.busy = true := hinv.busy_iff.mpr hphase
  have hkind : s.res.kind = .none := hinv.busy_none hbusy
  have hdone : s.status.done = false := by
    cases hd : s.status.done with
    | false => rfl
    | true => simp [hinv.done_idle hd] at hbusy
  have herr : s.status.err = false := by
    cases he : s.status.err with
    | false => rfl
    | true => simp [hinv.err_iff.mp he] at hkind
  obtain ⟨hmag, hq⟩ := hinv.res_zero (by simp [hkind])
  refine ⟨hinv.rowLoaded (.inl hbusy), ?_, ?_⟩
  · calc s.status = ⟨s.status.busy, s.status.done, s.status.err⟩ := rfl
      _ = statusAccepted := by rw [hbusy, hdone, herr]; rfl
  · calc s.res = ⟨s.res.kind, s.res.mag, s.res.q⟩ := rfl
      _ = ⟨.none, 0, 0⟩ := by rw [hkind, hmag, hq]

/-- Outside the wake window the engine is enabled (R73). -/
theorem State.Inv.engineOn {s : State} (hinv : s.Inv) {p : Phase} (hphase : s.phase = p) (hp : p.engineOff = false) :
    s.env.engineOn = true := by
  simpa [hphase, hp] using hinv.engine_window

/-- Outside the wake pulse the line is free (R73). -/
theorem State.Inv.lineFree {s : State} (hinv : s.Inv) {p : Phase} (hphase : s.phase = p) (hp : p.lineHeld = false) :
    s.env.lineLow = false := by
  simpa [hphase, hp] using hinv.line_window

/-- Outside RX_BEGIN no read is open (R87). -/
theorem State.Inv.notPending {s : State} (hinv : s.Inv) {p : Phase} (hphase : s.phase = p) (hp : p ≠ .rxBegin) :
    s.env.readPending = false := by
  simpa [hphase, hp] using hinv.pending_phase

/-- Outside the wake window and RX_BEGIN the environment is at rest. -/
theorem State.Inv.atRest {s : State} (hinv : s.Inv) {p : Phase} (hphase : s.phase = p) (hengine : p.engineOff = false)
    (hline : p.lineHeld = false) (hp : p ≠ .rxBegin) : s.env.AtRest :=
  ⟨hinv.engineOn hphase hengine, hinv.lineFree hphase hline, hinv.notPending hphase hp⟩

/-- Inside an operation the invariant is its two parts. -/
theorem State.Running.inv {s : State} (hrun : s.Running) (hphase : s.phase ≠ .idle) (hpos : s.PhaseInv) : s.Inv :=
  { hpos with
    busy_iff := by simp [hrun.status, hphase]
    done_idle := by simp [hrun.status]
    err_iff := by simp [hrun.status, hrun.res]
    busy_none := by simp [hrun.res]
    res_zero := by simp [hrun.res]
    init_none := by simp [hrun.res]
    value_valid := by simp [hrun.res]
    txlen_range := hrun.row.txlen_range
    rxlen_range := hrun.row.rxlen_range
    row_loaded := fun _ => ⟨hrun.row.txbuf, hrun.row.txlen, hrun.row.rxlen, hrun.row.divsel⟩ }

/-- Between operations no clause about a phase inside one says anything. -/
theorem phaseInv_of_idle {s : State} (hphase : s.phase = .idle) (hshort : s.rxlen = 2 → s.rxbuf[2] = 0 ∧ s.rxbuf[3] = 0)
    (hrest : s.env.AtRest) : s.PhaseInv where
  decode_valid := by simp [hphase]
  fail_invalid := by simp [hphase]
  chk_sum := by simp [hphase]
  judged_read := by simp [hphase, Phase.judging]
  idx_writing := by simp [hphase]
  idx_draining := by simp [hphase, Phase.draining]
  byte_there := by simp [hphase]
  zero_before := by simp [hphase, Phase.beforeRead]
  zero_beyond := by simp [hphase, Phase.draining]
  short_zero := hshort
  engine_window := by simp [hphase, hrest.engine, Phase.engineOff]
  line_window := by simp [hphase, hrest.line, Phase.lineHeld]
  pending_phase := by simp [hrest.pending]

/-- Up to RX_BEGIN the response buffer is zero, and only IDX in the write loop and the environment's windows matter. -/
theorem phaseInv_of_beforeRead {s : State} (hbefore : s.phase.beforeRead = true) (hzero : s.rxbuf = #v[0, 0, 0, 0])
    (hidx : s.phase = .txByte → s.idx.toNat < s.txlen.toNat) (hengine : s.env.engineOn = !s.phase.engineOff)
    (hline : s.env.lineLow = s.phase.lineHeld) (hpending : s.env.readPending = true → s.phase = .rxBegin) : s.PhaseInv where
  decode_valid h := by simp [h, Phase.beforeRead] at hbefore
  fail_invalid h := by simp [h, Phase.beforeRead] at hbefore
  chk_sum h := by rcases h with h | h <;> simp [h, Phase.beforeRead] at hbefore
  judged_read h := by cases hp : s.phase <;> simp [hp, Phase.beforeRead, Phase.judging] at hbefore h
  idx_writing := hidx
  idx_draining h := by cases hp : s.phase <;> simp [hp, Phase.beforeRead, Phase.draining] at hbefore h
  byte_there h := by simp [h, Phase.beforeRead] at hbefore
  zero_before _ := hzero
  zero_beyond h := by cases hp : s.phase <;> simp [hp, Phase.beforeRead, Phase.draining] at hbefore h
  short_zero _ := by simp [hzero]
  engine_window := hengine
  line_window := hline
  pending_phase := hpending

/-- In the drain loop: the bytes still queued fit behind IDX, and RXBUF is zero from IDX on. -/
theorem phaseInv_of_draining {s : State} (hdrain : s.phase.draining = true)
    (hfits : s.idx.toNat + s.env.rxQueue.length ≤ s.rxlen.toNat) (hthere : s.phase = .rxByte → s.env.rxQueue ≠ [])
    (hzero : ∀ j (h : j < 4), s.idx.toNat ≤ j → s.rxbuf[j] = 0) (hshort : s.rxlen = 2 → s.rxbuf[2] = 0 ∧ s.rxbuf[3] = 0)
    (hrest : s.env.AtRest) : s.PhaseInv := by
  have hphase : s.phase = .rxPoll ∨ s.phase = .rxByte := by
    cases hp : s.phase <;> simp [hp, Phase.draining] at hdrain ⊢
  constructor
  case idx_draining => exact fun _ => hfits
  case byte_there => exact hthere
  case zero_beyond => exact fun _ => hzero
  case short_zero => exact hshort
  all_goals rcases hphase with hphase | hphase <;>
    simp [hphase, Phase.judging, Phase.beforeRead, Phase.engineOff, Phase.lineHeld, hrest.engine, hrest.line, hrest.pending]

/-- After the drain loop of a read: the verdict is the frame's, and CHK its checksum. -/
theorem phaseInv_of_judging {s : State} (hjudge : s.phase.judging = true) (hread : s.opsel ≠ 0)
    (hvalid : s.phase = .decode → frameValid s.rxbuf = true) (hinvalid : s.phase = .fail → frameValid s.rxbuf = false)
    (hchk : s.phase = .decode ∨ s.phase = .fail → s.chk = checksum s.rxbuf)
    (hshort : s.rxlen = 2 → s.rxbuf[2] = 0 ∧ s.rxbuf[3] = 0) (hrest : s.env.AtRest) : s.PhaseInv := by
  have hphase : s.phase = .check ∨ s.phase = .decode ∨ s.phase = .fail := by
    cases hp : s.phase <;> simp [hp, Phase.judging] at hjudge ⊢
  constructor
  case decode_valid => exact hvalid
  case fail_invalid => exact hinvalid
  case chk_sum => exact hchk
  case judged_read => exact fun _ => hread
  case short_zero => exact hshort
  all_goals rcases hphase with hphase | hphase | hphase <;>
    simp [hphase, Phase.draining, Phase.beforeRead, Phase.engineOff, Phase.lineHeld, hrest.engine, hrest.line, hrest.pending]

/-! ### The rows -/

/-- Rows up to RX_BEGIN that leave every register but IDX and PHASE alone. -/
theorem State.Inv.beforeRead {s t : State} (hinv : s.Inv) (hs : s.phase.beforeRead = true) (ht : t.phase.beforeRead = true)
    (hregs : t = { s with phase := t.phase, idx := t.idx, env := t.env })
    (hidx : t.phase = .txByte → t.idx.toNat < t.txlen.toNat) (hengine : t.env.engineOn = !t.phase.engineOff)
    (hline : t.env.lineLow = t.phase.lineHeld) (hpending : t.env.readPending = true → t.phase = .rxBegin) : t.Inv := by
  have hnotIdle {p : Phase} (hp : p.beforeRead = true) : p ≠ .idle := by
    rintro rfl; simp [Phase.beforeRead] at hp
  have hrun := hinv.running (hnotIdle hs)
  have hrunT : t.Running := by
    rw [hregs]
    exact ⟨hrun.row.congr rfl rfl rfl rfl rfl, hrun.status, hrun.res⟩
  have hzero : t.rxbuf = #v[0, 0, 0, 0] := by
    rw [hregs]; exact hinv.zero_before hs
  exact hrunT.inv (hnotIdle ht) (phaseInv_of_beforeRead ht hzero hidx hengine hline hpending)

/-- The end of an operation: STATUS shows it, the frame registers stay, and RES is what `hvalue` and `hnone` say of it. -/
theorem inv_of_ended {s : State} (hrow : s.RowLoaded) (hphase : s.phase = .idle) (hbusy : s.status.busy = false)
    (herr : s.status.err = true ↔ s.res.kind = .error) (hres : s.res.kind ≠ .value → s.res.mag = 0 ∧ s.res.q = 0)
    (hinit : s.opsel = 0 → s.res.kind = .none)
    (hvalue : s.res.kind = .value → frameValid s.rxbuf = true ∧ s.res.mag = magnitude s.rxbuf ∧ s.res.q = s.divsel)
    (hshort : s.rxlen = 2 → s.rxbuf[2] = 0 ∧ s.rxbuf[3] = 0) (hrest : s.env.AtRest) : s.Inv := by
  have hpos := phaseInv_of_idle hphase hshort hrest
  exact {
    hpos with
    busy_iff := by simp [hbusy, hphase]
    done_idle := fun _ => hbusy
    err_iff := herr
    busy_none := by simp [hbusy]
    res_zero := hres
    init_none := hinit
    value_valid := hvalue
    txlen_range := hrow.txlen_range
    rxlen_range := hrow.rxlen_range
    row_loaded := fun _ => ⟨hrow.txbuf, hrow.txlen, hrow.rxlen, hrow.divsel⟩ }

end Sys2Proof.Machine
end

section
/-! The invariant of the registers and the environment: at reset, and kept by every row. -/

namespace Sys2Proof.Machine

/-- Adding 1 to a three-bit IDX below 7 does not wrap. -/
theorem idx_add_one_toNat {x : BitVec 3} (h : x.toNat < 7) : (x + 1).toNat = x.toNat + 1 := by
  rw [BitVec.toNat_add]; simp; omega

/-- The accept step starts an operation that meets the invariant, from any state whose environment is at rest. -/
theorem inv_accept (i : Instr) {s : State} (hrest : s.env.AtRest) : (accept i s).Inv :=
  State.Running.inv ⟨rowLoaded_accept i s, rfl, rfl⟩ (by simp)
    (phaseInv_of_beforeRead rfl rfl (by simp) (by simp [hrest.engine, Phase.engineOff])
      (by simp [hrest.line, Phase.lineHeld]) (by simp [hrest.pending]))

/-- A fixed row of WAKE, of the write transaction or of the settle delay: in phase `p` one action `a`, then phase `q`. -/
theorem State.Inv.fixedRow {s : State} (hinv : s.Inv) {p q : Phase} {a : Action} (hphase : s.phase = p)
    (hp : p.beforeRead = true) (hq : q.beforeRead = true) (hloop : q ≠ .txByte) (hread : p ≠ .rxBegin)
    (hengine : s.env.engineOn = !p.engineOff → (actionEffect a s.env).engineOn = !q.engineOff)
    (hline : s.env.lineLow = p.lineHeld → (actionEffect a s.env).lineLow = q.lineHeld)
    (hpending : (actionEffect a s.env).readPending = s.env.readPending) : (setPhase q (perform a s)).Inv := by
  subst hphase
  exact hinv.beforeRead hp hq rfl (by simp [hloop]) (by simpa using hengine hinv.engine_window)
    (by simpa using hline hinv.line_window) (by simp [hpending, hinv.notPending rfl hread])

/-- TX_BEGIN starts the write loop at the first byte of a frame that is not empty (R79). -/
theorem State.Inv.txBeginRow {s : State} (hinv : s.Inv) (hphase : s.phase = .txBegin) :
    (setPhase .txByte (clearIdx (perform (.beginWrite s.addr) s))).Inv := by
  have hrest := hinv.atRest hphase rfl rfl (by decide)
  have hlen : 0 < s.txlen.toNat := by
    rcases hinv.txlen_range with h | h <;> simp [h]
  exact hinv.beforeRead (by rw [hphase]; rfl) rfl rfl (fun _ => hlen) hrest.engine hrest.line
    (by simp [hrest.pending])

/-- TX_BYTE keeps IDX inside the frame while it stays in the loop (R79). -/
theorem State.Inv.txByteRow {s : State} (hinv : s.Inv) (hphase : s.phase = .txByte) :
    (setPhase (phaseAfterByte (s.idx + 1) s.txlen) (incIdx (perform (.writeByte (txByteAt s)) s))).Inv := by
  have hbefore : s.phase.beforeRead = true := by rw [hphase]; rfl
  have hrest := hinv.atRest hphase rfl rfl (by decide)
  by_cases hmore : s.idx + 1 < s.txlen
  · rw [phaseAfterByte, if_pos hmore]
    exact hinv.beforeRead hbefore rfl rfl (fun _ => BitVec.lt_def.mp hmore) hrest.engine hrest.line
      (by simp [hrest.pending])
  · rw [phaseAfterByte, if_neg hmore]
    exact hinv.beforeRead hbefore rfl rfl (by simp) hrest.engine hrest.line (by simp [hrest.pending])

/-- RX_BEGIN waits for a read that does not return, with everything else as it was (R87). -/
theorem State.Inv.readHangsRow {s : State} (hinv : s.Inv) (hphase : s.phase = .rxBegin) : (issueRead s).Inv := by
  have hengine := hinv.engineOn hphase rfl
  have hline := hinv.lineFree hphase rfl
  have hbefore : s.phase.beforeRead = true := by rw [hphase]; rfl
  rw [issueRead_eq]
  exact hinv.beforeRead hbefore hbefore rfl (by simp [hphase]) (by simp [hphase, hengine, Phase.engineOff])
    (by simp [hphase, hline, Phase.lineHeld]) (fun _ => hphase)

/-- RX_BEGIN hands the drain loop a queue that fits RXLEN, and an RXBUF of zeros (R81, R83). -/
theorem State.Inv.readReturnsRow {s : State} (hinv : s.Inv) (hphase : s.phase = .rxBegin) {avail : List Byte}
    (hlen : avail.length ≤ s.rxlen.toNat) : (setPhase .rxPoll (clearIdx (mapEnv (deliver avail) (issueRead s)))).Inv := by
  have hrun := hinv.running (by simp [hphase])
  have hzero := hinv.zero_before (by simp [hphase, Phase.beforeRead])
  have hengine := hinv.engineOn hphase rfl
  have hline := hinv.lineFree hphase rfl
  rw [issueRead_eq]
  refine State.Running.inv ⟨hrun.row.congr rfl rfl rfl rfl rfl, hrun.status, hrun.res⟩ (by simp) ?_
  refine phaseInv_of_draining rfl (by simpa using hlen) (by simp) (fun j hj _ => ?_) (fun _ => by simp [hzero])
    ⟨by simp [hengine], by simp [hline], rfl⟩
  show s.rxbuf[j] = 0
  rw [hzero]
  exact pad4_getElem [] j hj

/-- In the drain loop the engine is enabled, the line free and no read open. -/
theorem State.Inv.drainRest {s : State} (hinv : s.Inv) (hphase : s.phase.draining = true) : s.env.AtRest := by
  have : s.phase = .rxPoll ∨ s.phase = .rxByte := by cases hp : s.phase <;> simp [hp, Phase.draining] at hphase ⊢
  rcases this with h | h <;> exact hinv.atRest h rfl rfl (by decide)

/-- A poll that finds a byte leaves everything for RX_BYTE to take it (R82). -/
theorem State.Inv.pollByteRow {s : State} (hinv : s.Inv) (hphase : s.phase = .rxPoll) (hqueue : s.env.rxQueue ≠ [])
    (a : Nat) : (setPhase .rxByte (perform (.bytesAvailable a) s)).Inv := by
  have hrun := hinv.running (by simp [hphase])
  have hdrain : s.phase.draining = true := by simp [hphase, Phase.draining]
  have hrest := hinv.drainRest hdrain
  exact State.Running.inv ⟨hrun.row.congr rfl rfl rfl rfl rfl, hrun.status, hrun.res⟩ (by simp)
    (phaseInv_of_draining rfl (hinv.idx_draining hdrain) (fun _ => hqueue) (hinv.zero_beyond hdrain) hinv.short_zero
      ⟨hrest.engine, hrest.line, hrest.pending⟩)

/-- Taking a byte moves it from the queue to RXBUF[IDX]: IDX and the queue still fit, and beyond IDX nothing is written. -/
theorem State.Inv.takeByteRow {s : State} (hinv : s.Inv) (hphase : s.phase = .rxByte) {b : Byte} {bs : List Byte}
    (hqueue : s.env.rxQueue = b :: bs) (hasked : s.idx.toNat < s.rxlen.toNat) (hbuf : s.idx.toNat < 4) :
    (setPhase .rxPoll (incIdx (storeRx b (perform (.readByte b) s)))).Inv := by
  have hrun := hinv.running (by simp [hphase])
  have hdrain : s.phase.draining = true := by simp [hphase, Phase.draining]
  have hrest := hinv.drainRest hdrain
  have hidx := idx_add_one_toNat (x := s.idx) (by omega)
  have hkept : ∀ j (h : j < 4), s.idx.toNat < j → s.rxbuf[j] = 0 → (s.rxbuf.setIfInBounds s.idx.toNat b)[j] = 0 := by
    intro j hj hlt hzero
    rw [Vector.getElem_setIfInBounds_ne (by omega) (by omega), hzero]
  refine State.Running.inv ⟨hrun.row.congr rfl rfl rfl rfl rfl, hrun.status, hrun.res⟩ (by simp)
    (phaseInv_of_draining rfl ?_ (by simp) ?_ ?_ ⟨by simp [hrest.engine], by simp [hrest.line], by simp [hrest.pending]⟩)
  · have hfits := hinv.idx_draining hdrain
    show (s.idx + 1).toNat + s.env.rxQueue.tail.length ≤ s.rxlen.toNat
    rw [hidx, hqueue, List.tail_cons]
    rw [hqueue, List.length_cons] at hfits
    omega
  · intro j hj hle
    have hlt : s.idx.toNat < j := by
      have : (s.idx + 1).toNat ≤ j := hle
      omega
    exact hkept j hj hlt (hinv.zero_beyond hdrain j hj (by omega))
  · intro hshort
    have hidx2 : s.idx.toNat < 2 := by
      have : s.rxlen = 2 := by simpa using hshort
      simpa [this] using hasked
    obtain ⟨h2, h3⟩ := hinv.short_zero (by simpa using hshort)
    exact ⟨hkept 2 (by omega) hidx2 h2, hkept 3 (by omega) (by omega) h3⟩

/-- The last poll of INIT_MEAS ends it with RES empty (R108). -/
theorem State.Inv.pollEndRow {s : State} (hinv : s.Inv) (hphase : s.phase = .rxPoll) (a : Nat) :
    (endOperation (perform (.bytesAvailable a) s)).Inv := by
  have hrun := hinv.running (by simp [hphase])
  have hrest := hinv.drainRest (by simp [hphase, Phase.draining])
  exact inv_of_ended (hrun.row.congr rfl rfl rfl rfl rfl) rfl rfl (by simp [hrun.status, hrun.res]) (by simp [hrun.res])
    (by simp [hrun.res]) (by simp [hrun.res]) hinv.short_zero ⟨hrest.engine, hrest.line, hrest.pending⟩

/-- The last poll of a read leads to CHECK. -/
theorem State.Inv.pollCheckRow {s : State} (hinv : s.Inv) (hphase : s.phase = .rxPoll) (hread : s.opsel ≠ 0) (a : Nat) :
    (setPhase .check (perform (.bytesAvailable a) s)).Inv := by
  have hrun := hinv.running (by simp [hphase])
  have hrest := hinv.drainRest (by simp [hphase, Phase.draining])
  exact State.Running.inv ⟨hrun.row.congr rfl rfl rfl rfl rfl, hrun.status, hrun.res⟩ (by simp)
    (phaseInv_of_judging rfl hread (by simp) (by simp) (by simp) hinv.short_zero
      ⟨hrest.engine, hrest.line, hrest.pending⟩)

/-- CHECK writes CHK and takes the way the verdict names (R90). -/
theorem State.Inv.checkRow {s : State} (hinv : s.Inv) (hphase : s.phase = .check) : (rowCheck s).Inv := by
  have hrun := hinv.running (by simp [hphase])
  have hrest := hinv.atRest hphase rfl rfl (by decide)
  have hread := hinv.judged_read (by simp [hphase, Phase.judging])
  refine State.Running.inv ⟨hrun.row.congr rfl rfl rfl rfl rfl, hrun.status, hrun.res⟩ ?_
    (phaseInv_of_judging ?_ hread ?_ ?_ (fun _ => rfl) hinv.short_zero hrest)
  all_goals cases hvalid : frameValid s.rxbuf <;> simp [hvalid, Phase.judging]

/-- DECODE ends a read with the value of its valid frame (R95, R96). -/
theorem State.Inv.decodeRow {s : State} (hinv : s.Inv) (hphase : s.phase = .decode) : (rowDecode s).Inv := by
  have hrun := hinv.running (by simp [hphase])
  have hrest := hinv.atRest hphase rfl rfl (by decide)
  have hread := hinv.judged_read (by simp [hphase, Phase.judging])
  exact inv_of_ended (hrun.row.congr rfl rfl rfl rfl rfl) rfl rfl (by simp [hrun.status]) (by simp)
    (fun hop => absurd hop hread) (fun _ => ⟨hinv.decode_valid hphase, rfl, rfl⟩) hinv.short_zero hrest

/-- FAIL ends a read with the error result (R118). -/
theorem State.Inv.failRow {s : State} (hinv : s.Inv) (hphase : s.phase = .fail) : (raiseChecksumMismatch s).Inv := by
  have hrun := hinv.running (by simp [hphase])
  have hrest := hinv.atRest hphase rfl rfl (by decide)
  have hread := hinv.judged_read (by simp [hphase, Phase.judging])
  exact inv_of_ended (hrun.row.congr rfl rfl rfl rfl rfl) rfl rfl (by simp) (by simp)
    (fun hop => absurd hop hread) (by simp) hinv.short_zero hrest

/-- Every row of the phase table keeps the invariant. -/
theorem State.Inv.row {s t : State} (hinv : s.Inv) (h : Row s t) : t.Inv := by
  cases h with
  | stay hphase hstarts => exact hinv
  | start sel rest hphase hstarts hfree =>
    have hrest := hinv.atRest hphase rfl rfl (by decide)
    exact inv_accept _ ⟨hrest.engine, hrest.line, hrest.pending⟩
  | txBegin hphase => exact hinv.txBeginRow hphase
  | txByte hphase hidx => exact hinv.txByteRow hphase
  | readHangs hphase hread => exact hinv.readHangsRow hphase
  | readReturns avail hphase hread hlen => exact hinv.readReturnsRow hphase hlen
  | pollByte b bs hphase hqueue => exact hinv.pollByteRow hphase (by simp [hqueue]) _
  | pollEnd hphase hqueue hinit => exact hinv.pollEndRow hphase _
  | pollCheck hphase hqueue hread => exact hinv.pollCheckRow hphase hread _
  | takeByte b bs hphase hqueue hasked hbuf => exact hinv.takeByteRow hphase hqueue hasked hbuf
  | check hphase => exact hinv.checkRow hphase
  | decode hphase => exact hinv.decodeRow hphase
  | fail hphase => exact hinv.failRow hphase
  | wakeDisable hphase | wakeLow hphase | wakeHold hphase | wakeHigh hphase | wakeEnable hphase | wakeSettle hphase
  | txEnd hphase | cmdSettle hphase =>
    exact hinv.fixedRow hphase rfl rfl (by decide) (by decide) (by simp [Phase.engineOff]) (by simp [Phase.lineHeld]) rfl

/-- Settles O4: a step that answers is one row, and every row keeps the invariant. -/
theorem stepKeepsInvariant : Obligations.StepKeepsInvariant :=
  fun _ _ hinv hstep => hinv.row (row_of_step hstep)

end Sys2Proof.Machine
end

section
/-! Reset, and what each row does: its action, its successor and its registers. -/

namespace Sys2Proof.Machine

/-- Settles O1: the table is the definition of the reset state, field by field. -/
theorem resetRegisterValues : Obligations.ResetRegisterValues := by
  refine ⟨?_, rfl⟩
  rintro a s rfl
  exact ⟨rfl, rfl, rfl, rfl, rfl, rfl, rfl, rfl, rfl, rfl, rfl, rfl, rfl⟩

/-- Settles O2: reset leaves an idle block with nothing loaded, no result and the environment at rest. -/
theorem resetMeetsInvariant : Obligations.ResetMeetsInvariant := fun a =>
  have hpos : (State.resetWith a).PhaseInv := phaseInv_of_idle rfl (fun _ => ⟨rfl, rfl⟩) ⟨rfl, rfl, rfl⟩
  { hpos with
    busy_iff := by simp [State.resetWith]
    done_idle := by simp [State.resetWith]
    err_iff := by simp [State.resetWith]
    busy_none := fun _ => rfl
    res_zero := fun _ => ⟨rfl, rfl⟩
    init_none := fun _ => rfl
    value_valid := by simp [State.resetWith]
    txlen_range := .inl rfl
    rxlen_range := .inr rfl
    row_loaded := by simp [State.resetWith] }

@[simp] theorem issueRead_addr (s : State) : (issueRead s).addr = s.addr := by rw [issueRead_eq]; rfl

/-- No row writes ADDR (R11). -/
theorem Row.addr_eq {s t : State} (h : Row s t) : t.addr = s.addr := by
  cases h <;> simp

/-- Settles O6: a step that answers is one row, and no row writes ADDR. -/
theorem addressNeverChanges : Obligations.AddressNeverChanges :=
  fun _ _ hstep => (row_of_step hstep).addr_eq

/-- While IDX lies inside TXBUF, the byte written is TXBUF[IDX] (R79). -/
theorem txbuf_getElem?_idx {s : State} (hidx : s.idx.toNat < 5) : s.txbuf[s.idx.toNat]? = some (txByteAt s) := by
  simp [txByteAt, hidx]

/-- What `issueRead` adds to the trace: `BeginRead`, unless it has been issued before (R81). -/
theorem issueRead_trace (s : State) : (issueRead s).env.trace =
    s.env.trace ++ if s.env.readPending then [] else [.beginRead s.addr s.rxlen.toNat] := by
  rw [issueRead_eq]; rfl

@[simp] theorem issueRead_readPending (s : State) : (issueRead s).env.readPending = true := by rw [issueRead_eq]; rfl
@[simp] theorem issueRead_phase (s : State) : (issueRead s).phase = s.phase := by rw [issueRead_eq]; rfl

/-- Settles O11: for each row, its action, its successor and what it does to IDX and the queue; the other phases' clauses do
not apply. -/
theorem stepIsOneRow : Obligations.StepIsOneRow := by
  intro s t hstep
  cases row_of_step hstep with
  | stay hphase hstarts => exact ⟨[], by simp [hphase, hstarts]⟩
  | start sel rest hphase hstarts hfree => exact ⟨[], by simp [hphase, hstarts]⟩
  | wakeDisable hphase => exact ⟨[.engineDisable], by simp [hphase]⟩
  | wakeLow hphase => exact ⟨[.sdaLow], by simp [hphase]⟩
  | wakeHold hphase => exact ⟨[.delay Config.tWakeLow], by simp [hphase]⟩
  | wakeHigh hphase => exact ⟨[.sdaHigh], by simp [hphase]⟩
  | wakeEnable hphase => exact ⟨[.engineEnable], by simp [hphase]⟩
  | wakeSettle hphase => exact ⟨[.delay Config.tWakeSettle], by simp [hphase]⟩
  | txBegin hphase => exact ⟨[.beginWrite s.addr], by simp [hphase]⟩
  | txByte hphase hidx =>
    exact ⟨[.writeByte (txByteAt s)], by simp [hphase, txbuf_getElem?_idx hidx, phaseAfterByte]⟩
  | txEnd hphase => exact ⟨[.endWrite], by simp [hphase]⟩
  | cmdSettle hphase => exact ⟨[.delay Config.tCmdSettle], by simp [hphase]⟩
  | readHangs hphase hread =>
    refine ⟨_, issueRead_trace s, ?_⟩
    split <;> simp [hphase]
  | readReturns avail hphase hread hlen =>
    refine ⟨if s.env.readPending then [] else [.beginRead s.addr s.rxlen.toNat], by simp [issueRead_trace], ?_⟩
    split <;> simp [hphase]
  | pollByte b bs hphase hqueue => exact ⟨[.bytesAvailable s.env.rxQueue.length], by simp [hphase, hqueue]⟩
  | pollEnd hphase hqueue hinit => exact ⟨[.bytesAvailable s.env.rxQueue.length], by simp [hphase, hqueue, hinit]⟩
  | pollCheck hphase hqueue hread =>
    refine ⟨[.bytesAvailable s.env.rxQueue.length], ?_⟩
    simp only [setPhase_phase, if_pos hread]
    simp [hphase, hqueue]
  | takeByte b bs hphase hqueue hasked hbuf => exact ⟨[.readByte b], by simp [hphase, hqueue, hbuf]⟩
  | check hphase => exact ⟨[], by simp [hphase]⟩
  | decode hphase => exact ⟨[], by simp [hphase]⟩
  | fail hphase => exact ⟨[], by simp [hphase]⟩

/-- The accept step as a row of IDLE (R24): the start is taken off the port and its operation accepted. -/
theorem phaseStep_start {s : State} {sel : OpSel} {rest : List OpSel} (hphase : s.phase = .idle)
    (hstarts : s.env.starts = sel :: rest) (hfree : s.status.busy = false) :
    phaseStep s = .next (accept (Instr.ofOpSel sel) { s with env := { s.env with starts := rest } }) :=
  step_of_row (.start sel rest hphase hstarts hfree)

/-- Settles O30: the row of IDLE accepts, and the operation table gives what is loaded for each of the four codes. -/
theorem acceptStep : Obligations.AcceptStep := by
  intro s sel rest hphase hfree hstarts
  refine ⟨encode (Instr.ofOpSel sel), tableRxLen (Instr.ofOpSel sel), tableDivSel (Instr.ofOpSel sel), ?_, ?_⟩
  · clear hstarts
    revert sel
    decide
  · rw [phaseStep_start hphase hstarts hfree, accept, opSel_ofOpSel]; rfl

/-- Settles O47: the ports are fields of STATUS and RES, and a function of the two. -/
theorem hostPortsShowStatusAndResult : Obligations.HostPortsShowStatusAndResult := by
  refine ⟨fun s => ⟨rfl, rfl, rfl, rfl, rfl, rfl, rfl⟩, fun s t hstatus hres => ?_⟩
  simp only [hostPorts, hstatus, hres]

/-- A run whose first row is refused is refused. -/
theorem phaseRun_refused {n : Nat} {s : State} {r : Refusal} (h : phaseStep s = .refused r) :
    phaseRun (n + 1) s = .refused r := by
  simp [phaseRun, h]

/-- Settles O48, by induction on the number of rows: a step of the machine is a row. -/
theorem runsAreRows : Obligations.RunsAreRows := by
  intro n
  induction n with
  | zero => exact fun s => rfl
  | succ n ih =>
    intro s
    cases hrow : phaseStep s with
    | next t => exact (coreRun_next core n s t hrow).trans ((ih t).trans (phaseRun_cons hrow).symm)
    | refused r => exact (coreRun_refused core n s r hrow).trans (phaseRun_refused hrow).symm
    | fault r => exact nomatch r

end Sys2Proof.Machine
end

section
/-! The operations as wholes: when they answer, that they are their rows, and that they are independent of history. -/

namespace Sys2Proof.Machine

/-- What an operation does once its response is drained (R107): the reads judge and convert it, INIT_MEAS is over. -/
def finish : Instr → State → State
  | .initMeas => id
  | .readCo2 => validateAndDecode
  | .readTemp => validateAndDecode
  | .readRh => validateAndDecode

/-- The four operations share one shape (R107). -/
theorem exec_eq_runOperation (i : Instr) (s : State) : exec i s = runOperation i (finish i) s := by
  cases i <;> rfl

/-! ### The state in which the read is opened -/

@[simp] theorem command_accept_phase (i : Instr) (s : State) : (command (accept i s)).phase = .rxBegin := by
  rw [command_accept]

@[simp] theorem command_accept_opsel (i : Instr) (s : State) : (command (accept i s)).opsel = i.opSel := by
  rw [command_accept]; rfl

@[simp] theorem command_accept_rxlen (i : Instr) (s : State) : (command (accept i s)).rxlen = tableRxLen i := by
  rw [command_accept]; rfl

/-- The answer an operation gets is the next one of the state it is accepted in. -/
theorem nextAnswer_command_accept (i : Instr) (a : Answer) (s : State) :
    nextAnswer (tableRxLen i).toNat a s ↔
      readAnswer (command (accept i s)) = a ∧ overDelivers (command (accept i s)) = false := by
  have hsame : nextAnswer (tableRxLen i).toNat a (command (accept i s)) ↔ nextAnswer (tableRxLen i).toNat a s := by
    rw [command_accept]; rfl
  rw [← hsame, ← nextAnswer_iff, command_accept_rxlen]

/-- An operation is offered too much exactly when the next listed answer is longer than its RXLEN (R84). -/
theorem overDelivers_command_accept (i : Instr) (s : State) :
    overDelivers (command (accept i s)) = true ↔
      ∃ avail rest, s.env.answers = .bytes avail :: rest ∧ (tableRxLen i).toNat < avail.length := by
  have hlist : (command (accept i s)).env.answers = s.env.answers := by rw [command_accept]
  rcases h : s.env.answers with _ | ⟨_ | _, rest⟩ <;> simp [overDelivers, hlist, h, Answer.withinContract]

theorem tableRxLen_toNat_le (i : Instr) : (tableRxLen i).toNat ≤ 4 := by
  cases i <;> decide

/-! ### When an operation answers -/

theorem exec_of_busy {i : Instr} {s : State} (hbusy : s.status.busy = true) : exec i s = .refused .startWhileBusy := by
  simp [exec_eq_runOperation, runOperation, hbusy]

theorem exec_of_overDelivers {i : Instr} {s : State} (hfree : s.status.busy = false)
    (hover : overDelivers (command (accept i s)) = true) : exec i s = .refused .overDelivery := by
  simp [exec_eq_runOperation, runOperation, hfree, hover]

theorem exec_of_accepted {i : Instr} {s : State} (hfree : s.status.busy = false)
    (hover : overDelivers (command (accept i s)) = false) :
    exec i s = .next (respond (finish i) (command (accept i s))) := by
  rw [exec_eq_runOperation, runOperation_next_iff]
  exact ⟨hfree, hover, rfl⟩

/-- Settles O25: the two refusals are the two guards of an operation, and nothing else stops it. -/
theorem operationAnswersExactlyWhenAccepted : Obligations.OperationAnswersExactlyWhenAccepted := by
  intro i s
  refine ⟨exec_of_busy, fun hfree hlong => ?_, fun hfree hshort => ?_⟩
  · exact exec_of_overDelivers hfree ((overDelivers_command_accept i s).mpr hlong)
  · cases hover : overDelivers (command (accept i s)) with
    | false => exact ⟨_, exec_of_accepted hfree hover⟩
    | true =>
      obtain ⟨avail, rest, hlist, hlong⟩ := (overDelivers_command_accept i s).mp hover
      exact absurd (hshort avail rest hlist) (by omega)

/-! ### The response as rows -/

@[simp] theorem issueRead_opsel (s : State) : (issueRead s).opsel = s.opsel := by rw [issueRead_eq]; rfl
@[simp] theorem issueRead_rxlen (s : State) : (issueRead s).rxlen = s.rxlen := by rw [issueRead_eq]; rfl

/-- An answered read is drained and finished, whether or not `BeginRead` had been issued before. -/
theorem respond_of_bytes (f : State → State) {s : State} {avail : List Byte} (hread : readAnswer s = .bytes avail) :
    respond f s = f (drain avail.length (openRead s)) := by
  simp [respond, openRead_of_bytes hread]

/-- A read that never returns ends the response where it stands (R87). -/
theorem respond_of_never (f : State → State) {s : State} (hread : readAnswer s = .never) : respond f s = openRead s := by
  simp [respond, openRead_of_never hread]

/-- RX_BEGIN as a row, for a transport that keeps to its contract. -/
theorem phaseStep_openRead {s : State} (hphase : s.phase = .rxBegin) (hover : overDelivers s = false) :
    phaseStep s = .next (openRead s) := by
  simp [phaseStep, hphase, stepRxBegin, hover]

/-- CHECK and then DECODE or FAIL, as two rows. -/
theorem phaseRun_validateAndDecode {s : State} (hphase : s.phase = .check) :
    phaseRun 2 s = .next (validateAndDecode s) := by
  cases hvalid : frameValid s.rxbuf <;> simp [phaseRun, phaseStep, hphase, validateAndDecode, hvalid]

/-- After the last poll: CHECK and its successor for a read, nothing for INIT_MEAS. -/
theorem phaseRun_finish (i : Instr) {s : State} (hphase : s.phase = if i.opSel = 0 then .idle else .check) :
    phaseRun (if tableValidated i then 2 else 0) s = .next (finish i s) := by
  cases i with
  | initMeas => rfl
  | readCo2 => exact phaseRun_validateAndDecode hphase
  | readTemp => exact phaseRun_validateAndDecode hphase
  | readRh => exact phaseRun_validateAndDecode hphase

/-- RX_BEGIN, the drain loop and what follows it, as rows. -/
theorem phaseRun_respond (i : Instr) {s : State} {avail : List Byte} (hphase : s.phase = .rxBegin)
    (hopsel : s.opsel = i.opSel) (hrxlen : s.rxlen = tableRxLen i) (hread : readAnswer s = .bytes avail)
    (hover : overDelivers s = false) :
    phaseRun (1 + (2 * avail.length + 1 + if tableValidated i then 2 else 0)) s = .next (respond (finish i) s) := by
  have hcontract := (overDelivers_eq_false_iff s).mp hover
  have hlen : avail.length ≤ (tableRxLen i).toNat := by
    simpa [hread, hrxlen, Answer.withinContract] using hcontract
  have hmax := tableRxLen_toNat_le i
  have hopened : (openRead s).opsel = i.opSel ∧ (openRead s).rxlen = tableRxLen i ∧ (openRead s).phase = .rxPoll ∧
      (openRead s).env.rxQueue = avail ∧ (openRead s).idx = 0 := by
    simp [openRead_of_bytes hread, hopsel, hrxlen]
  obtain ⟨hopsel', hrxlen', hphase', hqueue, hidx⟩ := hopened
  have hdrain := phaseRun_drain avail (openRead s) hphase' hqueue (by simpa [hidx, hrxlen'] using hlen)
    (by simpa [hrxlen'] using hmax)
  have hdrained : (drain avail.length (openRead s)).phase = if i.opSel = 0 then .idle else .check := by
    rw [drain_eq avail i.opSel _ hopsel' hphase' hqueue (by simp [hidx]; omega)]
  rw [respond_of_bytes _ hread, Nat.add_comm 1, phaseRun_cons (phaseStep_openRead hphase hover),
    phaseRun_append hdrain, phaseRun_finish i hdrained]

/-- An operation that is answered is its accept step and `rowCount` rows (R21, R107). -/
theorem phaseRun_of_bytes {i : Instr} {s : State} {avail : List Byte} (hfree : s.status.busy = false)
    (hread : readAnswer (command (accept i s)) = .bytes avail) (hover : overDelivers (command (accept i s)) = false) :
    phaseRun (rowCount i avail.length) (accept i s) = exec i s := by
  have hcount : rowCount i avail.length =
      9 + (encode i).length + (1 + (2 * avail.length + 1 + if tableValidated i then 2 else 0)) := by
    rw [rowCount]; omega
  rw [hcount, phaseRun_append (phaseRun_command i s), exec_of_accepted hfree hover]
  exact phaseRun_respond i (by simp) (by simp) (by simp) hread hover

/-- An operation whose read never returns is its accept step and the rows up to and with RX_BEGIN (R87). -/
theorem phaseRun_of_never {i : Instr} {s : State} (hfree : s.status.busy = false)
    (hread : readAnswer (command (accept i s)) = .never) (hover : overDelivers (command (accept i s)) = false) :
    phaseRun (10 + (encode i).length) (accept i s) = exec i s := by
  rw [show 10 + (encode i).length = 9 + (encode i).length + (0 + 1) by omega, phaseRun_append (phaseRun_command i s),
    exec_of_accepted hfree hover, respond_of_never _ hread, phaseRun_cons (phaseStep_openRead (by simp) hover)]
  rfl

/-- Settles O28: the command, the response and what follows it are runs of the phase table. -/
theorem operationIsItsPhaseRows : Obligations.OperationIsItsPhaseRows := by
  intro i s hfree
  refine ⟨fun avail hnext => ?_, fun hnext => ?_⟩
  · obtain ⟨hread, hover⟩ := (nextAnswer_command_accept i _ s).mp hnext
    exact phaseRun_of_bytes hfree hread hover
  · obtain ⟨hread, hover⟩ := (nextAnswer_command_accept i _ s).mp hnext
    exact phaseRun_of_never hfree hread hover

/-! ### A start is run -/

/-- Where the transport offers too much, the rows are refused at RX_BEGIN as the operation is. -/
theorem phaseRun_of_overDelivers {i : Instr} {s : State} (hfree : s.status.busy = false)
    (hover : overDelivers (command (accept i s)) = true) :
    phaseRun (10 + (encode i).length) (accept i s) = exec i s := by
  have hrefused : phaseStep (command (accept i s)) = .refused .overDelivery := by
    simp [phaseStep, stepRxBegin, hover]
  rw [show 10 + (encode i).length = 9 + (encode i).length + (0 + 1) by omega, phaseRun_append (phaseRun_command i s),
    exec_of_overDelivers hfree hover, phaseRun_refused hrefused]

/-- No operation takes more than 25 rows after its accept step (95_test_vectors.md 2.5). -/
theorem rowCount_le {i : Instr} {k : Nat} (hk : k ≤ (tableRxLen i).toNat) : rowCount i k ≤ 25 := by
  have htable : (encode i).length + 2 * (tableRxLen i).toNat + (if tableValidated i then 2 else 0) ≤ 14 := by
    cases i <;> decide
  rw [rowCount]
  omega

theorem encode_length_le (i : Instr) : (encode i).length ≤ 5 := by
  cases i <;> decide

/-- Whatever an operation answers, at most 25 rows from its accept step answer the same. -/
theorem exists_phaseRun_eq_exec {i : Instr} {s : State} (hfree : s.status.busy = false) :
    ∃ n, n ≤ 25 ∧ phaseRun n (accept i s) = exec i s := by
  have hshort : 10 + (encode i).length ≤ 25 := by
    have := encode_length_le i
    omega
  cases hover : overDelivers (command (accept i s)) with
  | true => exact ⟨_, hshort, phaseRun_of_overDelivers hfree hover⟩
  | false =>
    cases hread : readAnswer (command (accept i s)) with
    | never => exact ⟨_, hshort, phaseRun_of_never hfree hread hover⟩
    | bytes avail =>
      have hcontract := (overDelivers_eq_false_iff _).mp hover
      rw [hread, command_accept_rxlen] at hcontract
      exact ⟨_, rowCount_le (by simpa [Answer.withinContract] using hcontract), phaseRun_of_bytes hfree hread hover⟩

/-- A start on the port comes, in at most 26 rows, to what its operation answers, refusals too. -/
theorem exists_phaseRun_start {s : State} {sel : OpSel} {rest : List OpSel} (hphase : s.phase = .idle)
    (hstarts : s.env.starts = sel :: rest) :
    ∃ n, n ≤ 26 ∧ phaseRun n s = exec (Instr.ofOpSel sel) { s with env := { s.env with starts := rest } } := by
  cases hfree : s.status.busy with
  | true =>
    have hrefused : phaseStep s = .refused .startWhileBusy := by
      simp [phaseStep, hphase, rowIdle, nextStart, hstarts, hfree]
    exact ⟨1, by omega, (phaseRun_refused hrefused).trans (exec_of_busy (by exact hfree)).symm⟩
  | false =>
    obtain ⟨n, hn, hrun⟩ := exists_phaseRun_eq_exec (i := Instr.ofOpSel sel)
      (s := { s with env := { s.env with starts := rest } }) hfree
    exact ⟨n + 1, by omega, by rw [phaseRun_cons (phaseStep_start hphase hstarts hfree), hrun]⟩

/-- Settles O8: the first row accepts the start, and the rows from there on are the operation's. -/
theorem stepRunsTheStartedOperation : Obligations.StepRunsTheStartedOperation := by
  rintro s s₀ sel rest hphase hstarts rfl
  obtain ⟨n, hn, hrun⟩ := exists_phaseRun_start hphase hstarts
  exact ⟨fun hfree => phaseStep_start hphase hstarts hfree, fun t hexec => ⟨n, hn, hrun.trans hexec⟩,
    fun r hexec => ⟨n, hn, hrun.trans hexec⟩⟩

/-! ### Independence of history -/

/-- Two states that show the same outcome of an operation: every register it writes but CHK and MAG. -/
structure SameOutcome (t u : State) : Prop where
  res : t.res = u.res
  status : t.status = u.status
  phase : t.phase = u.phase
  rxbuf : t.rxbuf = u.rxbuf
  idx : t.idx = u.idx
  opsel : t.opsel = u.opsel
  txbuf : t.txbuf = u.txbuf
  txlen : t.txlen = u.txlen
  rxlen : t.rxlen = u.rxlen
  divsel : t.divsel = u.divsel

theorem SameOutcome.symm {t u : State} (h : SameOutcome t u) : SameOutcome u t :=
  ⟨h.res.symm, h.status.symm, h.phase.symm, h.rxbuf.symm, h.idx.symm, h.opsel.symm, h.txbuf.symm, h.txlen.symm,
    h.rxlen.symm, h.divsel.symm⟩

theorem SameOutcome.trans {t u v : State} (h : SameOutcome t u) (k : SameOutcome u v) : SameOutcome t v :=
  ⟨h.res.trans k.res, h.status.trans k.status, h.phase.trans k.phase, h.rxbuf.trans k.rxbuf, h.idx.trans k.idx,
    h.opsel.trans k.opsel, h.txbuf.trans k.txbuf, h.txlen.trans k.txlen, h.rxlen.trans k.rxlen,
    h.divsel.trans k.divsel⟩

/-- VALIDATE and what follows it depend on the drained response and DIVSEL only. -/
theorem SameOutcome.validateAndDecode {t u : State} (h : SameOutcome t u) :
    SameOutcome (validateAndDecode t) (validateAndDecode u) := by
  obtain ⟨hres, hstatus, hphase, hrxbuf, hidx, hopsel, htxbuf, htxlen, hrxlen, hdivsel⟩ := h
  rw [validateAndDecode_eq, validateAndDecode_eq, hrxbuf]
  split <;> constructor <;> simp [*]

theorem SameOutcome.finish {t u : State} (i : Instr) (h : SameOutcome t u) : SameOutcome (finish i t) (finish i u) := by
  cases i with
  | initMeas => exact h
  | readCo2 => exact h.validateAndDecode
  | readTemp => exact h.validateAndDecode
  | readRh => exact h.validateAndDecode

/-- VALIDATE and what follows it touch nothing outside the block. -/
@[simp] theorem validateAndDecode_env (s : State) : (validateAndDecode s).env = s.env := by
  rw [validateAndDecode_eq]; split <;> rfl

@[simp] theorem finish_env (i : Instr) (s : State) : (finish i s).env = s.env := by
  cases i <;> simp [finish]

/-- What an operation performs, given its answer (R88, R87). -/
def operationTrace (a : BusAddr) (i : Instr) : Answer → List Action
  | .bytes avail => exchangeTrace a (encode i) (tableRxLen i).toNat avail
  | .never => commandTrace a (encode i) ++ [.beginRead a (tableRxLen i).toNat]

/-- The registers an operation has written when its response is drained, on the registers of `s`. -/
def drained (i : Instr) (avail : List Byte) (s : State) : State :=
  { accept i s with
    rxbuf := pad4 avail
    idx := BitVec.ofNat 3 avail.length
    status := if i.opSel = 0 then statusEnded statusAccepted else statusAccepted
    phase := if i.opSel = 0 then .idle else .check }

/-- The registers of an operation that waits for its read, on the registers of `s` (R87). -/
def waiting (i : Instr) (s : State) : State := { accept i s with idx := tableTxLen i, phase := .rxBegin }

/-- The outcome of an operation as a function of the operation and the answer alone (R23): on the registers of reset. -/
def outcome (i : Instr) : Answer → State
  | .bytes avail => finish i (drained i avail State.reset)
  | .never => waiting i State.reset

/-- The response to an accepted operation leaves what `drained` says, and has performed the exchange. -/
theorem respond_command_accept_bytes (f : State → State) (i : Instr) {s : State} {avail : List Byte}
    (hpending : s.env.readPending = false) (hread : readAnswer (command (accept i s)) = .bytes avail)
    (hlen : avail.length ≤ 4) :
    ∃ e : Env, respond f (command (accept i s)) = f { drained i avail s with env := e } ∧
      e.trace = s.env.trace ++ operationTrace s.addr i (.bytes avail) := by
  have hclosed : (command (accept i s)).env.readPending = false := by rw [command_accept]; exact hpending
  refine ⟨{ consumeAnswer (command (accept i s)).env with
    rxQueue := []
    readPending := false
    trace := s.env.trace ++ operationTrace s.addr i (.bytes avail) }, ?_, rfl⟩
  rw [respond_bytes f _ i.opSel avail (by simp) hread hclosed hlen]
  simp only [command_accept, accept_rxbuf, accept_status, accept_addr, accept_rxlen, drained, ← storeAll_zero avail hlen,
    operationTrace, exchangeTrace, List.append_assoc, BitVec.ofNat_eq_ofNat]

/-- What an operation does is given by ADDR, the operation and the answer: its outcome, and the actions it performs. -/
theorem exec_of_nextAnswer {i : Instr} {a : Answer} {s : State} (hready : s.ready)
    (hnext : nextAnswer (tableRxLen i).toNat a s) :
    ∃ t, exec i s = .next t ∧ SameOutcome t (outcome i a) ∧
      t.env.trace = s.env.trace ++ operationTrace s.addr i a := by
  obtain ⟨hfree, hpending⟩ := hready
  obtain ⟨hread, hover⟩ := (nextAnswer_command_accept i a s).mp hnext
  refine ⟨_, exec_of_accepted hfree hover, ?_⟩
  cases a with
  | bytes avail =>
    have hcontract := (overDelivers_eq_false_iff _).mp hover
    rw [hread, command_accept_rxlen] at hcontract
    have hasked : avail.length ≤ (tableRxLen i).toNat := by simpa [Answer.withinContract] using hcontract
    obtain ⟨e, hrespond, htrace⟩ := respond_command_accept_bytes (finish i) i hpending hread
      (hasked.trans (tableRxLen_toNat_le i))
    rw [hrespond]
    exact ⟨SameOutcome.finish i ⟨rfl, rfl, rfl, rfl, rfl, rfl, rfl, rfl, rfl, rfl⟩, by rw [finish_env]; exact htrace⟩
  | never =>
    rw [respond_never _ _ hread (by rw [command_accept]; exact hpending), command_accept]
    exact ⟨⟨rfl, rfl, rfl, rfl, rfl, rfl, rfl, rfl, rfl, rfl⟩, by simp [operationTrace]⟩

/-- Settles O27: both runs have the outcome and the actions of `exec_of_nextAnswer`. -/
theorem operationsAreIndependentOfHistory : Obligations.OperationsAreIndependentOfHistory := by
  intro i a s₁ s₂ hready₁ hready₂ haddr hnext₁ hnext₂
  obtain ⟨t₁, hexec₁, hout₁, htrace₁⟩ := exec_of_nextAnswer hready₁ hnext₁
  obtain ⟨t₂, hexec₂, hout₂, htrace₂⟩ := exec_of_nextAnswer hready₂ hnext₂
  obtain ⟨hres, hstatus, hphase, hrxbuf, hidx, hopsel, htxbuf, htxlen, hrxlen, hdivsel⟩ := hout₁.trans hout₂.symm
  rw [← haddr] at htrace₂
  exact ⟨t₁, t₂, operationTrace s₁.addr i a, hexec₁, hexec₂, hres, hstatus, hphase, hrxbuf, hidx, hopsel, htxbuf, htxlen,
    hrxlen, hdivsel, htrace₁, htrace₂⟩

end Sys2Proof.Machine
end

section
/-! Every operation ends: a count of the rows left, which every row but a hanging read lowers (10_state.md R22, R152). -/

namespace Sys2Proof.Machine

/-- The next read returns, if there is one still to come. -/
def State.ReadReturns (s : State) : Prop :=
  s.phase.beforeRead = true → ∃ avail, nextAnswer s.rxlen.toNat (.bytes avail) s

/-- How many rows the operation still takes at most, for a response of RXLEN bytes. -/
def rowsLeft (s : State) : Nat :=
  match s.phase with
  | .idle => 0
  | .wakeDisable => 13 + s.txlen.toNat + 2 * s.rxlen.toNat
  | .wakeLow => 12 + s.txlen.toNat + 2 * s.rxlen.toNat
  | .wakeHold => 11 + s.txlen.toNat + 2 * s.rxlen.toNat
  | .wakeHigh => 10 + s.txlen.toNat + 2 * s.rxlen.toNat
  | .wakeEnable => 9 + s.txlen.toNat + 2 * s.rxlen.toNat
  | .wakeSettle => 8 + s.txlen.toNat + 2 * s.rxlen.toNat
  | .txBegin => 7 + s.txlen.toNat + 2 * s.rxlen.toNat
  | .txByte => 6 + (s.txlen.toNat - s.idx.toNat) + 2 * s.rxlen.toNat
  | .txEnd => 6 + 2 * s.rxlen.toNat
  | .cmdSettle => 5 + 2 * s.rxlen.toNat
  | .rxBegin => 4 + 2 * s.rxlen.toNat
  | .rxPoll => 3 + 2 * s.env.rxQueue.length
  | .rxByte => 2 + 2 * s.env.rxQueue.length
  | .check => 2
  | .decode => 1
  | .fail => 1

/-- Inside an operation whose read returns, the invariant excludes every refusal: a row answers. -/
theorem State.Inv.exists_row {s : State} (hinv : s.Inv) (hphase : s.phase ≠ .idle) (hreturns : s.ReadReturns) :
    ∃ t, Row s t := by
  cases hp : s.phase with
  | idle => exact absurd hp hphase
  | wakeDisable => exact ⟨_, .wakeDisable hp⟩
  | wakeLow => exact ⟨_, .wakeLow hp⟩
  | wakeHold => exact ⟨_, .wakeHold hp⟩
  | wakeHigh => exact ⟨_, .wakeHigh hp⟩
  | wakeEnable => exact ⟨_, .wakeEnable hp⟩
  | wakeSettle => exact ⟨_, .wakeSettle hp⟩
  | txBegin => exact ⟨_, .txBegin hp⟩
  | txByte =>
    have hidx := hinv.idx_writing hp
    have hlen : s.txlen.toNat ≤ 5 := by rcases hinv.txlen_range with h | h <;> simp [h]
    exact ⟨_, .txByte hp (by omega)⟩
  | txEnd => exact ⟨_, .txEnd hp⟩
  | cmdSettle => exact ⟨_, .cmdSettle hp⟩
  | rxBegin =>
    obtain ⟨avail, hnext⟩ := hreturns (by rw [hp]; rfl)
    obtain ⟨hread, hover⟩ := (nextAnswer_iff s _).mp hnext
    have hcontract := (overDelivers_eq_false_iff s).mp hover
    exact ⟨_, .readReturns avail hp hread (by simpa [hread, Answer.withinContract] using hcontract)⟩
  | rxPoll => exact ⟨_, row_rowRxPoll hp⟩
  | rxByte =>
    obtain ⟨b, bs, hqueue⟩ := List.exists_cons_of_ne_nil (hinv.byte_there hp)
    have hfits := hinv.idx_draining (by rw [hp]; rfl)
    have hlen : s.rxlen.toNat ≤ 4 := by rcases hinv.rxlen_range with h | h <;> simp [h]
    rw [hqueue, List.length_cons] at hfits
    exact ⟨_, .takeByte b bs hp hqueue (by omega) (by omega)⟩
  | check => exact ⟨_, .check hp⟩
  | decode => exact ⟨_, .decode hp⟩
  | fail => exact ⟨_, .fail hp⟩

/-- In RX_BEGIN a read that returns is not one that hangs. -/
theorem State.ReadReturns.ne_never {s : State} (hreturns : s.ReadReturns) (hphase : s.phase = .rxBegin) :
    readAnswer s ≠ .never := by
  obtain ⟨avail, hnext⟩ := hreturns (by rw [hphase]; rfl)
  simp [((nextAnswer_iff s _).mp hnext).1]

/-- The coming answer is a matter of RXLEN, the list and the count of free answers. -/
theorem State.ReadReturns.congr {s t : State} (hreturns : s.ReadReturns) (hbefore : s.phase.beforeRead = true)
    (hrxlen : t.rxlen = s.rxlen) (hanswers : t.env.answers = s.env.answers) (hdraws : t.env.draws = s.env.draws) :
    t.ReadReturns := by
  intro _
  obtain ⟨avail, hnext⟩ := hreturns hbefore
  exact ⟨avail, by simpa only [nextAnswer, hrxlen, hanswers, hdraws] using hnext⟩

/-- After the read nothing is still to come. -/
theorem readReturns_of_not_beforeRead {s : State} (h : s.phase.beforeRead = false) : s.ReadReturns := by
  intro hbefore; simp [h] at hbefore

/-- No row of an operation uses the coming answer up before its read. -/
theorem Row.keeps_readReturns {s t : State} (h : Row s t) (hphase : s.phase ≠ .idle) (hreturns : s.ReadReturns) :
    t.ReadReturns := by
  cases h with
  | stay hp | start _ _ hp => exact absurd hp hphase
  | wakeDisable hp | wakeLow hp | wakeHold hp | wakeHigh hp | wakeEnable hp | wakeSettle hp | txBegin hp | txByte hp
  | txEnd hp | cmdSettle hp =>
    exact hreturns.congr (by rw [hp]; rfl) rfl rfl rfl
  | readHangs hp hread => exact absurd hread (hreturns.ne_never hp)
  | readReturns | pollByte | pollEnd | pollCheck | takeByte | decode | fail =>
    exact readReturns_of_not_beforeRead rfl
  | check =>
    refine readReturns_of_not_beforeRead ?_
    cases hvalid : frameValid s.rxbuf <;> simp [hvalid, Phase.beforeRead]

/-- Every row of an operation whose read returns lowers the count. -/
theorem Row.rowsLeft_lt {s t : State} (h : Row s t) (hinv : s.Inv) (hphase : s.phase ≠ .idle)
    (hreturns : s.ReadReturns) : rowsLeft t < rowsLeft s := by
  cases h with
  | stay hp | start _ _ hp => exact absurd hp hphase
  | wakeDisable hp | wakeLow hp | wakeHold hp | wakeHigh hp | wakeEnable hp | wakeSettle hp | txBegin hp | txEnd hp
  | cmdSettle hp =>
    simp [rowsLeft, hp]
  | txByte hp hidx =>
    have hin := hinv.idx_writing hp
    have hnext := idx_add_one_toNat (x := s.idx) (by omega)
    by_cases hmore : s.idx + 1 < s.txlen
    · rw [phaseAfterByte, if_pos hmore]
      show 6 + (s.txlen.toNat - (s.idx + 1).toNat) + 2 * s.rxlen.toNat < rowsLeft s
      simp only [rowsLeft, hp]
      omega
    · rw [phaseAfterByte, if_neg hmore]
      show 6 + 2 * s.rxlen.toNat < rowsLeft s
      simp only [rowsLeft, hp]
      omega
  | readHangs hp hread => exact absurd hread (hreturns.ne_never hp)
  | readReturns avail hp hread hlen =>
    show 3 + 2 * avail.length < rowsLeft s
    simp only [rowsLeft, hp]
    omega
  | pollByte b bs hp hqueue => simp [rowsLeft, hp]
  | pollEnd hp => simp [rowsLeft, hp]
  | pollCheck hp => simp [rowsLeft, hp]; omega
  | takeByte b bs hp hqueue =>
    simp [rowsLeft, hp, hqueue]
    omega
  | check hp => cases hvalid : frameValid s.rxbuf <;> simp [rowsLeft, hp, hvalid]
  | decode hp => simp [rowsLeft, hp]
  | fail hp => simp [rowsLeft, hp]

theorem phaseAfterByte_ne_idle (idx txlen : BitVec 3) : phaseAfterByte idx txlen ≠ .idle := by
  unfold phaseAfterByte
  split <;> decide

/-- The row that ends an operation sets DONE (R24). -/
theorem Row.done_of_idle {s t : State} (h : Row s t) (hphase : s.phase ≠ .idle) (hidle : t.phase = .idle) :
    t.status.done = true := by
  cases h with
  | stay hp | start _ _ hp => exact absurd hp hphase
  | pollEnd | decode | fail => rfl
  | txByte => exact absurd hidle (phaseAfterByte_ne_idle _ _)
  | readHangs => exact absurd (by simpa using hidle) hphase
  | check => cases hvalid : frameValid s.rxbuf <;> simp [hvalid] at hidle
  | wakeDisable | wakeLow | wakeHold | wakeHigh | wakeEnable | wakeSettle | txBegin | txEnd | cmdSettle | readReturns
  | pollByte | pollCheck | takeByte =>
    simp at hidle

/-- A run from inside an operation whose read returns, by induction on the rows left. -/
theorem exists_phaseRun_idle (k : Nat) : ∀ s : State, rowsLeft s ≤ k → s.Inv → s.phase ≠ .idle → s.ReadReturns →
    ∃ n t, n ≤ k ∧ phaseRun n s = .next t ∧ t.Inv ∧ t.phase = .idle ∧ t.status.done = true := by
  induction k with
  | zero =>
    intro s hk hinv hphase hreturns
    obtain ⟨t, hrow⟩ := hinv.exists_row hphase hreturns
    exact absurd (hrow.rowsLeft_lt hinv hphase hreturns) (by omega)
  | succ k ih =>
    intro s hk hinv hphase hreturns
    obtain ⟨t, hrow⟩ := hinv.exists_row hphase hreturns
    have hless := hrow.rowsLeft_lt hinv hphase hreturns
    have hstep : phaseStep s = .next t := step_of_row hrow
    by_cases hidle : t.phase = .idle
    · exact ⟨1, t, by omega, phaseRun_cons hstep, hinv.row hrow, hidle, hrow.done_of_idle hphase hidle⟩
    · obtain ⟨n, u, hn, hrun, hend⟩ := ih t (by omega) (hinv.row hrow) hidle (hrow.keeps_readReturns hphase hreturns)
      exact ⟨n + 1, u, by omega, (phaseRun_cons hstep).trans hrun, hend⟩

/-- No operation has more than 25 rows left: a frame of 5 bytes asks for 2, a frame of 4 for 4 (R65). -/
theorem State.Inv.rowsLeft_le {s : State} (hinv : s.Inv) (hphase : s.phase ≠ .idle) : rowsLeft s ≤ 25 := by
  have hrow := (hinv.running hphase).row
  have hlens : 4 ≤ s.txlen.toNat ∧ s.txlen.toNat + 2 * s.rxlen.toNat ≤ 12 := by
    rw [hrow.txlen, hrow.rxlen]
    cases Instr.ofOpSel s.opsel <;> decide
  have hqueue : s.phase.draining = true → s.env.rxQueue.length ≤ s.rxlen.toNat := fun hdrain => by
    have := hinv.idx_draining hdrain
    omega
  cases hp : s.phase <;> simp [rowsLeft, hp, Phase.draining] at hqueue ⊢ <;> omega

/-- Settles O29: the rows left are at most 25, and each row of an operation whose read returns lowers them. -/
theorem operationsEnd : Obligations.OperationsEnd := by
  intro s hinv hphase hreturns
  obtain ⟨n, t, hn, hrun, hinvT, hidle, hdone⟩ :=
    exists_phaseRun_idle 25 s (hinv.rowsLeft_le hphase) hinv hphase hreturns
  have hfree : t.status.busy = false := by simpa [hidle] using hinvT.busy_iff
  exact ⟨n, t, hn, hrun, hidle, hfree, hdone⟩

end Sys2Proof.Machine
end

section
/-! The order of actions: a step adds at most one action, and that action is the one the bus may see next (20_memory.md R50, R51). -/

namespace Sys2Proof.Machine

/-- Settles O7: a step adds the action of its row, or none. -/
theorem traceOnlyGrows : Obligations.TraceOnlyGrows := by
  intro s t hstep
  obtain ⟨xs, htrace, -⟩ := stepIsOneRow s t hstep
  exact ⟨xs, htrace⟩

/-! ### Traces on the bus -/

/-- A trace is followed by following its parts one after the other. -/
theorem busRun_append (a : BusAddr) (xs ys : List Action) (p : BusPos) :
    busRun a p (xs ++ ys) = (busRun a p xs).bind fun q => busRun a q ys := by
  induction xs generalizing p with
  | nil => rfl
  | cons x xs ih =>
    rw [List.cons_append, busRun, busRun]
    cases busNext a p x with
    | none => rfl
    | some q => exact ih q

@[simp] theorem busRun_singleton (a : BusAddr) (p : BusPos) (x : Action) : busRun a p [x] = busNext a p x := by
  rw [busRun]
  cases busNext a p x <;> rfl

/-- One action more, admitted where the trace stands, keeps the order. -/
theorem State.traceOk.performed {s t : State} (hok : s.traceOk) (x : Action) (haddr : t.addr = s.addr)
    (htrace : t.env.trace = s.env.trace ++ [x]) (hnext : busNext s.addr (busPosOf s) x = some (busPosOf t)) :
    t.traceOk := by
  have hrun : busRun s.addr .quiet s.env.trace = some (busPosOf s) := hok
  rw [State.traceOk, haddr, htrace, busRun_append, hrun, Option.bind_some, busRun_singleton, hnext]

/-- A row without an action keeps the order where its two phases stand at the same place. -/
theorem State.traceOk.silent {s t : State} (hok : s.traceOk) (haddr : t.addr = s.addr)
    (htrace : t.env.trace = s.env.trace) (hpos : busPosOf t = busPosOf s) : t.traceOk := by
  rw [State.traceOk, haddr, htrace, hpos]; exact hok

/-! ### Where a trace may stand -/

/-- A whole frame may be closed, and names its operation (R79). -/
theorem busNext_endWrite_encode (a : BusAddr) (i : Instr) :
    busNext a (.writing (encode i)) .endWrite = some (.written i) := by
  cases i <;> rfl

/-- The byte TX_BYTE writes is the frame's next one (R79). -/
theorem State.RowLoaded.txByteAt_eq {s : State} (hrow : s.RowLoaded)
    (hidx : s.idx.toNat < (encode (Instr.ofOpSel s.opsel)).length) :
    txByteAt s = (encode (Instr.ofOpSel s.opsel))[s.idx.toNat] := by
  have hframe : ∀ (i : Instr) (j : Nat) (h : j < (encode i).length), ((tableFrame i)[j]?).getD 0 = (encode i)[j] := by
    intro i; cases i <;> decide
  rw [txByteAt, hrow.txbuf, hframe _ _ hidx]

theorem tableTxLen_toNat (i : Instr) : (tableTxLen i).toNat = (encode i).length := by
  cases i <;> rfl

/-- After a byte the frame's bytes up to IDX have been sent, and these are all where the loop is left (R79). -/
theorem busPosOf_afterByte {s : State} (hrow : s.RowLoaded) (hidx : s.idx.toNat < s.txlen.toNat) (x : Action) :
    busPosOf (setPhase (phaseAfterByte (s.idx + 1) s.txlen) (incIdx (perform x s))) =
      .writing ((encode (Instr.ofOpSel s.opsel)).take (s.idx.toNat + 1)) := by
  have hlen : s.txlen.toNat = (encode (Instr.ofOpSel s.opsel)).length := by rw [hrow.txlen, tableTxLen_toNat]
  have hadd : (s.idx + 1).toNat = s.idx.toNat + 1 := idx_add_one_toNat (by omega)
  by_cases hmore : s.idx + 1 < s.txlen
  · rw [phaseAfterByte, if_pos hmore, ← hadd]
    rfl
  · rw [phaseAfterByte, if_neg hmore]
    rw [BitVec.lt_def] at hmore
    rw [List.take_of_length_le (by omega)]
    rfl

/-! ### The rows -/

/-- TX_BYTE sends the frame's next byte (R79). -/
theorem State.traceOk.txByteRow {s : State} (hok : s.traceOk) (hinv : s.Inv) (hphase : s.phase = .txByte) :
    (setPhase (phaseAfterByte (s.idx + 1) s.txlen) (incIdx (perform (.writeByte (txByteAt s)) s))).traceOk := by
  have hrow := (hinv.running (by simp [hphase])).row
  have hidx := hinv.idx_writing hphase
  have hin : s.idx.toNat < (encode (Instr.ofOpSel s.opsel)).length := by
    rwa [hrow.txlen, tableTxLen_toNat] at hidx
  have hpos : busPosOf s = .writing ((encode (Instr.ofOpSel s.opsel)).take s.idx.toNat) := by simp [busPosOf, hphase]
  refine hok.performed (.writeByte (txByteAt s)) rfl (by simp) ?_
  rw [busPosOf_afterByte hrow hidx, hpos, busNext, hrow.txByteAt_eq hin, List.take_concat_get']

/-- Where RX_BEGIN stands once its read has been issued. -/
theorem State.Inv.issueRead_traceOk {s : State} (hinv : s.Inv) (hok : s.traceOk) (hphase : s.phase = .rxBegin) :
    (issueRead s).traceOk := by
  have hasked : busPosOf (issueRead s) = .asked s.rxlen.toNat := by simp [busPosOf, hphase]
  cases hpend : s.env.readPending with
  | true => exact hok.silent (by simp) (by simp [issueRead_trace, hpend]) (by rw [hasked]; simp [busPosOf, hphase, hpend])
  | false =>
    have hlen := (hinv.running (by simp [hphase])).row.rxlen
    refine hok.performed (.beginRead s.addr s.rxlen.toNat) (by simp) (by simp [issueRead_trace, hpend]) ?_
    rw [hasked]
    simp [busPosOf, hphase, hpend, busNext, hlen]

/-- What a poll may count: at most RXLEN bytes at first, and then what the byte before has left (R82, R84). -/
theorem busNext_poll {s : State} (hinv : s.Inv) (hphase : s.phase = .rxPoll) :
    busNext s.addr (busPosOf s) (.bytesAvailable s.env.rxQueue.length) =
      if s.env.rxQueue.length = 0 then some .quiet else some (.offered s.env.rxQueue.length) := by
  have hfits := hinv.idx_draining (by rw [hphase]; rfl)
  by_cases hfirst : s.idx = 0
  · have hle : s.env.rxQueue.length ≤ s.rxlen.toNat := by omega
    simp only [busPosOf, hphase, hfirst, if_true, busNext, hle]
  · simp only [busPosOf, hphase, hfirst, if_false, busNext, if_true]

/-- Every row of the phase table keeps the order of actions. -/
theorem State.traceOk.row {s t : State} (hok : s.traceOk) (hinv : s.Inv) (h : Row s t) : t.traceOk := by
  cases h with
  | stay hphase hstarts => exact hok
  | start sel rest hphase hstarts hfree => exact hok.silent rfl rfl (by simp [busPosOf, hphase])
  | wakeDisable hphase | wakeLow hphase | wakeHold hphase | wakeHigh hphase | wakeEnable hphase | wakeSettle hphase =>
    exact hok.performed _ rfl rfl (by simp [busPosOf, hphase, busNext])
  | txBegin hphase => exact hok.performed (.beginWrite s.addr) rfl rfl (by simp [busPosOf, hphase, busNext])
  | txByte hphase hidx => exact hok.txByteRow hinv hphase
  | txEnd hphase =>
    exact hok.performed .endWrite rfl rfl (by simp [busPosOf, hphase, busNext_endWrite_encode])
  | cmdSettle hphase =>
    have hpending := hinv.notPending hphase (by decide)
    exact hok.performed _ rfl rfl (by simp [busPosOf, hphase, busNext, hpending, Config.tCmdSettle])
  | readHangs hphase hread => exact hinv.issueRead_traceOk hok hphase
  | readReturns avail hphase hread hlen =>
    exact (hinv.issueRead_traceOk hok hphase).silent rfl (by simp) (by simp [busPosOf, hphase])
  | pollByte _ _ hphase hqueue | pollEnd hphase hqueue _ | pollCheck hphase hqueue _ =>
    exact hok.performed _ rfl rfl ((busNext_poll hinv hphase).trans (by simp [busPosOf, hqueue]))
  | takeByte b bs hphase hqueue hasked hbuf =>
    have hadd := idx_add_one_toNat (x := s.idx) (by omega)
    have hlater : s.idx + 1 ≠ 0 := by
      intro hzero
      rw [hzero] at hadd
      simp at hadd
    refine hok.performed (.readByte b) rfl rfl ?_
    simpa [busPosOf, hphase, busNext, hqueue] using hlater
  | check hphase =>
    refine hok.silent rfl rfl ?_
    cases hvalid : frameValid s.rxbuf <;> simp [busPosOf, hphase, hvalid]
  | decode hphase | fail hphase => exact hok.silent rfl rfl (by simp [busPosOf, hphase])

/-- Settles O5: a step that answers is one row, and every row performs what the bus may see next. -/
theorem stepKeepsActionOrder : Obligations.StepKeepsActionOrder :=
  fun _ _ hinv hok hstep => hok.row hinv (row_of_step hstep)

end Sys2Proof.Machine
end

section
/-! The sensor's register space (20_memory.md R42, R44): a MemRead and a MemWrite are the four operations. -/

namespace Sys2Proof

/-- A MemRead is a read operation, at its pointer (R42). -/
theorem memRead_eq_some_iff (ptr : Half) (i : Instr) :
    memRead ptr = some i ↔ i ≠ .initMeas ∧ ptr = i.pointer := by
  constructor
  · intro hread
    unfold memRead at hread
    split_ifs at hread with hco2 htemp hrh <;> cases hread
    · exact ⟨by decide, hco2⟩
    · exact ⟨by decide, htemp⟩
    · exact ⟨by decide, hrh⟩
  · rintro ⟨hne, rfl⟩
    cases i with
    | initMeas => exact absurd rfl hne
    | readCo2 | readTemp | readRh => rfl

/-- The one MemWrite is the initiate-measurement operation (R42). -/
theorem memWrite_eq_some_iff (ptr : Half) (v : Byte) (i : Instr) :
    memWrite ptr v = some i ↔ ptr = 0x0060 ∧ v = 0x35 ∧ i = .initMeas := by
  by_cases h : ptr = 0x0060 ∧ v = 0x35
  · simp [memWrite, h, eq_comm]
  · simp only [memWrite, if_neg h, reduceCtorEq, false_iff]
    exact fun ⟨hptr, hv, _⟩ => h ⟨hptr, hv⟩

/-- A pointer can be read exactly where one of the three reads has it. -/
theorem memRead_isSome_iff (ptr : Half) :
    (memRead ptr).isSome = true ↔ ptr = 0x0008 ∨ ptr = 0x0012 ∨ ptr = 0x0014 := by
  simp only [Option.isSome_iff_exists, memRead_eq_some_iff]
  constructor
  · rintro ⟨i, hread, rfl⟩
    cases i with
    | initMeas => exact absurd rfl hread
    | readCo2 => exact .inl rfl
    | readTemp => exact .inr (.inl rfl)
    | readRh => exact .inr (.inr rfl)
  · rintro (rfl | rfl | rfl)
    · exact ⟨.readCo2, by decide, rfl⟩
    · exact ⟨.readTemp, by decide, rfl⟩
    · exact ⟨.readRh, by decide, rfl⟩

/-- Settles O18: a MemRead is one of the three reads, and the MemWrite is INIT_MEAS; their frames are the table's. -/
theorem memoryAccessesExpand : Obligations.MemoryAccessesExpand := by
  refine ⟨fun ptr i hread => ?_, memRead_isSome_iff, memWrite_eq_some_iff, rfl, rfl, rfl⟩
  obtain ⟨hne, rfl⟩ := (memRead_eq_some_iff ptr i).mp hread
  cases i with
  | initMeas => exact absurd rfl hne
  | readCo2 => exact ⟨0x00, 0x08, 0x2A, rfl, rfl, rfl, rfl, rfl⟩
  | readTemp => exact ⟨0x00, 0x12, 0x34, rfl, rfl, rfl, rfl, rfl⟩
  | readRh => exact ⟨0x00, 0x14, 0x36, rfl, rfl, rfl, rfl, rfl⟩

end Sys2Proof
end

section
/-! A free answer does what the same answer does when it is listed (20_memory.md R45): the whole next state of an operation, and
how it depends on the environment. -/

namespace Sys2Proof.Machine

/-- The environment after an operation whose read returned `avail`: the answer is used up and the exchange performed. -/
def exchanged (i : Instr) (avail : List Byte) (s : State) : Env :=
  { consumeAnswer s.env with
    engineOn := true
    lineLow := false
    rxQueue := []
    readPending := false
    trace := s.env.trace ++ operationTrace s.addr i (.bytes avail) }

/-- The environment of an operation that waits for its read (R87). -/
def asking (i : Instr) (s : State) : Env :=
  { s.env with
    engineOn := true
    lineLow := false
    readPending := true
    trace := s.env.trace ++ operationTrace s.addr i .never }

/-- An answer that is the next one to a read of `n` bytes is no longer than `n` (41_exchange.md R84). -/
theorem nextAnswer.length_le {n : Nat} {avail : List Byte} {s : State} (hnext : nextAnswer n (.bytes avail) s) :
    avail.length ≤ n := by
  have hcontract : (Answer.bytes avail).withinContract n = true := by
    rcases hnext with ⟨_, _, hlisted⟩ | ⟨_, hfree⟩
    · exact hlisted
    · rw [← hfree]; exact freeAnswerFor_withinContract _ _
  simpa [Answer.withinContract] using hcontract

/-- What is to be answered after the read is what the command found, less the answer used. -/
theorem consumeAnswer_command_accept (i : Instr) (s : State) :
    consumeAnswer (command (accept i s)).env =
      { consumeAnswer s.env with
        engineOn := true
        lineLow := false
        trace := s.env.trace ++ commandTrace s.addr (encode i) } := by
  rw [command_accept]
  cases hlist : s.env.answers <;> simp only [consumeAnswer, hlist]

/-- The whole next state of an operation whose read returns. -/
theorem exec_of_bytes {i : Instr} {s : State} {avail : List Byte} (hready : s.ready)
    (hnext : nextAnswer (tableRxLen i).toNat (.bytes avail) s) :
    exec i s = .next (finish i { drained i avail s with env := exchanged i avail s }) := by
  obtain ⟨hfree, hpending⟩ := hready
  obtain ⟨hread, hover⟩ := (nextAnswer_command_accept i _ s).mp hnext
  have hlen : avail.length ≤ 4 := hnext.length_le.trans (tableRxLen_toNat_le i)
  rw [exec_of_accepted hfree hover,
    respond_bytes _ _ i.opSel avail (by simp) hread (by rw [command_accept]; exact hpending) hlen]
  simp only [consumeAnswer_command_accept]
  simp only [command_accept, accept_rxbuf, accept_status, accept_addr, accept_rxlen, drained, ← storeAll_zero avail hlen,
    exchanged, operationTrace, exchangeTrace, List.append_assoc, BitVec.ofNat_eq_ofNat]

/-- The whole next state of an operation whose read never returns (R87). -/
theorem exec_of_never {i : Instr} {s : State} (hready : s.ready) (hnext : nextAnswer (tableRxLen i).toNat .never s) :
    exec i s = .next { waiting i s with env := asking i s } := by
  obtain ⟨hfree, hpending⟩ := hready
  obtain ⟨hread, hover⟩ := (nextAnswer_command_accept i _ s).mp hnext
  rw [exec_of_accepted hfree hover, respond_never _ _ hread (by rw [command_accept]; exact hpending), command_accept]
  simp [asking, waiting, operationTrace]

/-- What follows the drain loop does not look at the environment. -/
theorem validateAndDecode_mapEnv (f : Env → Env) (s : State) :
    validateAndDecode (mapEnv f s) = mapEnv f (validateAndDecode s) := by
  rw [validateAndDecode_eq, validateAndDecode_eq, mapEnv_rxbuf]
  split <;> rfl

theorem finish_mapEnv (i : Instr) (f : Env → Env) (s : State) : finish i (mapEnv f s) = mapEnv f (finish i s) := by
  cases i with
  | initMeas => rfl
  | readCo2 => exact validateAndDecode_mapEnv f s
  | readTemp => exact validateAndDecode_mapEnv f s
  | readRh => exact validateAndDecode_mapEnv f s

/-- The state with `a` as the one listed answer. -/
def listing (a : Answer) (s : State) : State := mapEnv (fun e => { e with answers := [a] }) s

/-- The environment as it is where the answer was not listed but the free value number `d`: counted if the read returned. -/
def countedFree (d : Nat) (e : Env) : Env :=
  { e with answers := [], draws := if e.readPending then d else d + 1 }

theorem exchanged_listing {i : Instr} {avail : List Byte} {s : State} (hlist : s.env.answers = []) :
    exchanged i avail s = countedFree s.env.draws (exchanged i avail (listing (.bytes avail) s)) := by
  simp [exchanged, countedFree, listing, consumeAnswer, hlist]

theorem asking_listing {i : Instr} {s : State} (hlist : s.env.answers = []) :
    asking i s = countedFree s.env.draws (asking i (listing .never s)) := by
  simp [asking, countedFree, listing, hlist]

/-- Settles O26: the two runs differ in how the answer is used up, and nothing after the read looks at that. -/
theorem freeAnswerActsAsAListedOne : Obligations.FreeAnswerActsAsAListedOne := by
  intro i s hready hlist
  obtain ⟨a, ha⟩ : ∃ a, a = freeAnswerFor s.env.draws (tableRxLen i).toNat := ⟨_, rfl⟩
  have hcontract : a.withinContract (tableRxLen i).toNat = true := by
    rw [ha]; exact freeAnswerFor_withinContract _ _
  have hfree : nextAnswer (tableRxLen i).toNat a s := .inr ⟨hlist, ha.symm⟩
  have hlisted : nextAnswer (tableRxLen i).toNat a (listing a s) := .inl ⟨[], rfl, hcontract⟩
  suffices h : ∃ t, exec i (listing a s) = .next t ∧ exec i s = .next (mapEnv (countedFree s.env.draws) t) by
    obtain ⟨t, hexec, hexec'⟩ := h
    exact ⟨a, t, hcontract, ha, hexec, hexec'⟩
  cases a with
  | bytes avail =>
    refine ⟨_, exec_of_bytes hready hlisted, ?_⟩
    rw [exec_of_bytes hready hfree, ← finish_mapEnv, exchanged_listing hlist]
    rfl
  | never =>
    refine ⟨_, exec_of_never hready hlisted, ?_⟩
    rw [exec_of_never hready hfree, asking_listing hlist]
    rfl

end Sys2Proof.Machine
end

section
/-! The two encodings (30_encoding.md): the decoder accepts exactly the four frames, the numbers of the opcode table are the
frames, and the select codes are the operations. -/

namespace Sys2Proof

/-! ### Frames -/

/-- After the opcode 0x22 the decoder accepts only the frame of a read (R57). -/
theorem eq_encode_of_decodeCmd4 {bs rest : List Byte} {i : Instr} (h : decodeCmd4 bs = .ok (i, rest)) :
    0x22 :: bs = encode i ++ rest := by
  match bs with
  | [] | [_] | [_, _] => cases h
  | hi :: lo :: cks :: bs =>
    rw [decodeCmd4] at h
    split_ifs at h with hptr hcks hptr hcks hptr hcks <;> cases h
    · obtain ⟨rfl, rfl⟩ := bePair_inj (a := 0x00) (b := 0x08) hptr
      rw [hcks]; rfl
    · obtain ⟨rfl, rfl⟩ := bePair_inj (a := 0x00) (b := 0x12) hptr
      rw [hcks]; rfl
    · obtain ⟨rfl, rfl⟩ := bePair_inj (a := 0x00) (b := 0x14) hptr
      rw [hcks]; rfl

/-- After the opcode 0x11 the decoder accepts only the frame of INIT_MEAS (R58). -/
theorem eq_encode_of_decodeCmd5 {bs rest : List Byte} {i : Instr} (h : decodeCmd5 bs = .ok (i, rest)) :
    0x11 :: bs = encode i ++ rest := by
  match bs with
  | [] | [_] | [_, _] | [_, _, _] => cases h
  | hi :: lo :: data :: cks :: bs =>
    rw [decodeCmd5] at h
    split_ifs at h with hptr hdata hcks
    cases h
    obtain ⟨rfl, rfl⟩ := bePair_inj (a := 0x00) (b := 0x60) hptr
    rw [hdata, hcks]; rfl

/-- Settles O13: byte 0 leads to one of the two frame classes, and each accepts only its own frames. -/
theorem decodeAcceptsOnlyTheFourFrames : Obligations.DecodeAcceptsOnlyTheFourFrames := by
  intro bs rest i h
  match bs with
  | [] => cases h
  | op :: bs =>
    rw [decode] at h
    split_ifs at h with hop hop
    · rw [hop]; exact eq_encode_of_decodeCmd4 h
    · rw [hop]; exact eq_encode_of_decodeCmd5 h

/-- Settles O12: every byte the decoder looks at is a literal of the frame, whatever follows. -/
theorem decodeOfEncode : Obligations.DecodeOfEncode := by
  intro i rest
  cases i <;> rfl

/-- Settles O17: the audit table of R61, frame by frame. -/
theorem frameChecksumLiterals : Obligations.FrameChecksumLiterals := by
  intro i
  cases i with
  | readCo2 => exact ⟨[0x22, 0x00, 0x08], 0x2A, rfl, rfl, .inl ⟨rfl, rfl, rfl⟩⟩
  | readTemp => exact ⟨[0x22, 0x00, 0x12], 0x34, rfl, rfl, .inr (.inl ⟨rfl, rfl, rfl⟩)⟩
  | readRh => exact ⟨[0x22, 0x00, 0x14], 0x36, rfl, rfl, .inr (.inr (.inl ⟨rfl, rfl, rfl⟩))⟩
  | initMeas => exact ⟨[0x11, 0x00, 0x60, 0x35], 0xA6, rfl, rfl, .inr (.inr (.inr ⟨rfl, rfl, rfl⟩))⟩

/-! ### Frames as numbers -/

/-- A byte string as one number, byte 0 most significant (30_encoding.md, opening paragraph). -/
def numberOfBytes (bs : List Byte) : Nat := bs.foldl (fun n b => 256 * n + b.toNat) 0

theorem foldl_bytes_eq (bs : List Byte) (n : Nat) :
    bs.foldl (fun n b => 256 * n + b.toNat) n = 256 ^ bs.length * n + numberOfBytes bs := by
  induction bs generalizing n with
  | nil => simp [numberOfBytes]
  | cons b bs ih =>
    rw [numberOfBytes, List.foldl_cons, List.foldl_cons, ih, ih (256 * 0 + b.toNat), List.length_cons]
    ring

@[simp] theorem numberOfBytes_cons (b : Byte) (bs : List Byte) :
    numberOfBytes (b :: bs) = 256 ^ bs.length * b.toNat + numberOfBytes bs := by
  rw [numberOfBytes, List.foldl_cons, foldl_bytes_eq, Nat.mul_zero, Nat.zero_add]

theorem numberOfBytes_lt (bs : List Byte) : numberOfBytes bs < 256 ^ bs.length := by
  induction bs with
  | nil => decide
  | cons b bs ih =>
    have hb : b.toNat + 1 ≤ 256 := b.isLt
    calc numberOfBytes (b :: bs) < 256 ^ bs.length * (b.toNat + 1) := by rw [numberOfBytes_cons, Nat.mul_succ]; omega
      _ ≤ 256 ^ bs.length * 256 := Nat.mul_le_mul_left _ hb

/-- The last `n` bytes of a number do not depend on what is above them. -/
theorem bytesOfNumber_add (n k w : Nat) : bytesOfNumber n (256 ^ n * k + w) = bytesOfNumber n w := by
  induction n generalizing k with
  | zero => rfl
  | succ n ih =>
    have hsplit : 256 ^ (n + 1) * k + w = 256 ^ n * (256 * k) + w := by ring
    have hbyte : BitVec.ofNat 8 (256 * k + w / 256 ^ n) = BitVec.ofNat 8 (w / 256 ^ n) :=
      BitVec.eq_of_toNat_eq (Nat.mul_add_mod 256 k _)
    rw [hsplit, bytesOfNumber, bytesOfNumber, ih, Nat.mul_add_div (by positivity), hbyte]

/-- Writing bytes as a number loses nothing. -/
theorem bytesOfNumber_numberOfBytes (bs : List Byte) : bytesOfNumber bs.length (numberOfBytes bs) = bs := by
  induction bs with
  | nil => rfl
  | cons b bs ih =>
    have hdiv : (256 ^ bs.length * b.toNat + numberOfBytes bs) / 256 ^ bs.length = b.toNat := by
      rw [Nat.mul_add_div (by positivity), Nat.div_eq_of_lt (numberOfBytes_lt bs), Nat.add_zero]
    rw [numberOfBytes_cons, List.length_cons, bytesOfNumber, hdiv, bytesOfNumber_add, ih, BitVec.ofNat_toNat,
      BitVec.setWidth_eq]

/-- The number of an operation's frame decodes to the operation. -/
theorem decodeTableWord_numberOfBytes (i : Instr) :
    decodeTableWord (8 * (encode i).length) (numberOfBytes (encode i)) = some i := by
  have hbytes : (8 * (encode i).length + 7) / 8 = (encode i).length := by omega
  have hdecode : decode (encode i) = .ok (i, []) := by simpa using decodeOfEncode i []
  rw [decodeTableWord, hbytes, if_pos (numberOfBytes_lt _), bytesOfNumber_numberOfBytes, hdecode]

/-- Settles O14: the four numbers are the numbers of the four frames. -/
theorem tableWordsDecode : Obligations.TableWordsDecode :=
  ⟨decodeTableWord_numberOfBytes .initMeas, decodeTableWord_numberOfBytes .readCo2,
    decodeTableWord_numberOfBytes .readTemp, decodeTableWord_numberOfBytes .readRh⟩

/-! ### The address byte -/

/-- Settles O19: appending one bit is doubling and adding it. -/
theorem addressByte : Obligations.AddressByte := fun a =>
  ⟨(append_toNat a (0 : BitVec 1)).trans (Nat.mul_comm _ _),
    (append_toNat a (1 : BitVec 1)).trans (congrArg (· + 1) (Nat.mul_comm _ _))⟩

/-! ### Select codes and the operation table -/

namespace Machine

/-- Settles O16: the table of R64, and the two maps are inverse to each other. -/
theorem selectCodes : Obligations.SelectCodes :=
  ⟨rfl, rfl, rfl, rfl, opSel_ofOpSel, ofOpSel_opSel⟩

/-- TXBUF begins with the frame (R13). -/
theorem tableFrame_take (i : Instr) : (tableFrame i).toList.take (encode i).length = encode i := by
  cases i <;> rfl

/-- Settles O15: the frame, its number and its length are general, the columns are the table's row. -/
theorem operationTable : Obligations.OperationTable := by
  intro i
  refine ⟨encode i, numberOfBytes (encode i), rfl, tableFrame_take i, tableTxLen_toNat i,
    decodeTableWord_numberOfBytes i, rfl, ?_⟩
  cases i with
  | initMeas => exact .inl ⟨rfl, rfl, rfl, rfl, rfl, rfl, rfl⟩
  | readCo2 => exact .inr (.inl ⟨rfl, rfl, rfl, rfl, rfl, rfl, rfl⟩)
  | readTemp => exact .inr (.inr (.inl ⟨rfl, rfl, rfl, rfl, rfl, rfl, rfl⟩))
  | readRh => exact .inr (.inr (.inr ⟨rfl, rfl, rfl, rfl, rfl, rfl, rfl⟩))

/-! ### A word of the table, placed -/

/-- A word of the table is placed as the start of its operation. -/
theorem withFetchWord_eq {nbits w : Nat} {i : Instr} (hword : decodeTableWord nbits w = some i) (s : State) :
    s.withFetchWord nbits w = placeStart i.opSel s := by
  rw [State.withFetchWord, hword]

/-- Settles O9: a placed word is a start on the port of an idle block, and the start is run. -/
theorem stepRunsThePlacedWord : Obligations.StepRunsThePlacedWord := by
  rintro s s₀ nbits w i hword hs₀
  have hstart := stepRunsTheStartedOperation (placeStart i.opSel s) s₀ i.opSel s.env.starts rfl rfl hs₀
  rw [ofOpSel_opSel] at hstart
  obtain ⟨haccept, hnext, hrefused⟩ := hstart
  rw [withFetchWord_eq hword]
  exact ⟨haccept rfl, hnext, hrefused⟩

end Machine

end Sys2Proof
end

section
/-! WAKE (40_wake.md): each of its rows as an equation of states, and the six of them together. -/

namespace Sys2Proof.Machine

/-- Settles O31: the six rows come to `wake` (`phaseRun_wake`), and `wake_eq` says what `wake` changes. -/
theorem wakeRows : Obligations.WakeRows := by
  intro s hphase
  rw [phaseRun_wake s hphase, wake_eq]

/-- A row of the phase table, as what `phaseStep` answers. -/
theorem phaseStep_of_row {s t : State} (h : Row s t) : phaseStep s = .next t := step_of_row h

/-- Settles O32: each wake phase has one row in the phase table (`Row`), and what it performs changes only the trace, the engine
and the line. -/
theorem wakeRowByRow : Obligations.WakeRowByRow := fun _ =>
  ⟨fun hphase => phaseStep_of_row (.wakeDisable hphase),
    fun hphase => phaseStep_of_row (.wakeLow hphase),
    fun hphase => phaseStep_of_row (.wakeHold hphase),
    fun hphase => phaseStep_of_row (.wakeHigh hphase),
    fun hphase => phaseStep_of_row (.wakeEnable hphase),
    fun hphase => phaseStep_of_row (.wakeSettle hphase)⟩

end Sys2Proof.Machine
end

section
/-! EXCHANGE (41_exchange.md): the write transaction, the settle delay and the read transaction as equations of states, and the
read that never returns. -/

namespace Sys2Proof.Machine

/-- Settles O34: CMD_SETTLE has one row, and OPSEL does not occur in it. -/
theorem settleDelay : Obligations.SettleDelay := fun _ hphase => phaseStep_of_row (.cmdSettle hphase)

/-- A pending read that never returns: its row leads back to the same state (R87). -/
theorem step_of_pending_never {s : State} (hphase : s.phase = .rxBegin) (hread : readAnswer s = .never)
    (hpending : s.env.readPending = true) : step s = .next s := by
  have hrow := Row.readHangs hphase hread
  rw [issueRead, if_pos hpending] at hrow
  exact step_of_row hrow

/-- Settles O24: the operation stops where it waits for its read, and there the answer is still `never`. -/
theorem readThatNeverReturnsHangs : Obligations.ReadThatNeverReturnsHangs := by
  intro i s rest hready hlist
  have hnext : nextAnswer (tableRxLen i).toNat .never s := .inl ⟨rest, hlist, rfl⟩
  have hread : readAnswer { waiting i s with env := asking i s } = .never := by simp [readAnswer, asking, hlist]
  exact ⟨_, exec_of_never hready hnext, rfl, rfl, rfl, rfl, rfl, rfl, rfl, by simp [asking, operationTrace],
    step_of_pending_never rfl hread rfl⟩

/-! ### The write transaction -/

/-- The bytes the write loop sends: TXBUF[0..TXLEN-1] (R79). -/
def loadedFrame (s : State) : List Byte := s.txbuf.toList.take s.txlen.toNat

theorem loadedFrame_length {s : State} (hlen : s.txlen.toNat ≤ 5) : (loadedFrame s).length = s.txlen.toNat := by
  simpa [loadedFrame] using hlen

theorem txbuf_eq_loadedFrame {s : State} {j : Nat} (hj : j < s.txlen.toNat) :
    (s.txbuf[j]?).getD 0 = (loadedFrame s).getD j 0 := by
  simp [loadedFrame, List.getD, hj]

/-- The write loop from its first byte sends the loaded frame, whatever TXBUF holds (R79). -/
theorem sendBytes_loadedFrame {s : State} (hpos : s.txlen.toNat ≠ 0) (hlen : s.txlen.toNat ≤ 5) :
    sendBytes s.txlen.toNat (rowTxBegin s) = { s with
      idx := s.txlen
      phase := .txEnd
      env := { s.env with trace := s.env.trace ++ .beginWrite s.addr :: (loadedFrame s).map .writeByte } } := by
  rw [sendBytes_eq (loadedFrame s) _ (rowTxBegin s) rfl hpos (Nat.zero_add _) (fun _ => txbuf_eq_loadedFrame)
    (loadedFrame_length hlen)]
  simp [rowTxBegin, setPhase, clearIdx, perform, mapEnv, record]

/-- Settles O33: TX_BEGIN, the write loop of TXLEN rows, TX_END. -/
theorem writeTransaction : Obligations.WriteTransaction := by
  intro s hphase hrange
  have hpos : s.txlen.toNat ≠ 0 := by rcases hrange with h | h <;> simp [h]
  have hlen : s.txlen.toNat ≤ 5 := by rcases hrange with h | h <;> simp [h]
  have hloop : phaseRun s.txlen.toNat (rowTxBegin s) = .next (sendBytes s.txlen.toNat (rowTxBegin s)) :=
    phaseRun_sendBytes _ _ rfl (Nat.zero_add _) hlen
  rw [sendBytes_loadedFrame hpos hlen] at hloop
  rw [show s.txlen.toNat + 2 = s.txlen.toNat + 1 + 1 from rfl, phaseRun_cons (phaseStep_of_row (.txBegin hphase)),
    ← rowTxBegin, phaseRun_append hloop, phaseRun_cons (phaseStep_of_row (.txEnd rfl))]
  simp [phaseRun, loadedFrame, setPhase, perform, mapEnv, record]

/-! ### The read transaction -/

/-- Bytes stored from position `i` on, byte by byte: the bytes in arrival order, and the other positions as they were (R82). -/
theorem storeAll_getElem (bs : List Byte) : ∀ (rx : Vector Byte 4) (i j : Nat) (hj : j < 4),
    (storeAll rx i bs)[j] = if i ≤ j ∧ j < i + bs.length then bs.getD (j - i) 0 else rx[j] := by
  induction bs with
  | nil =>
    intro rx i j hj
    rw [storeAll, if_neg (by simp)]
  | cons b bs ih =>
    intro rx i j hj
    rw [storeAll, ih]
    rcases Nat.lt_trichotomy j i with hlt | rfl | hgt
    · rw [if_neg (by omega), if_neg (by omega), Vector.getElem_setIfInBounds_ne hj (by omega)]
    · simp
    · have hsub : j - i = j - (i + 1) + 1 := by omega
      simp only [List.length_cons, hsub, List.getD_cons_succ, Vector.getElem_setIfInBounds_ne hj (Nat.ne_of_lt hgt)]
      congr 1
      simp only [eq_iff_iff]
      omega

/-- The read transaction as rows: RX_BEGIN, then a poll before every byte and one after the last (R81, R82). -/
theorem phaseRun_respond_id {s : State} {avail : List Byte} (hphase : s.phase = .rxBegin)
    (hread : readAnswer s = .bytes avail) (hlen : avail.length ≤ s.rxlen.toNat) (hmax : s.rxlen.toNat ≤ 4) :
    phaseRun (2 * avail.length + 2) s = .next (respond id s) := by
  have hover : overDelivers s = false := by simpa [overDelivers_eq_false_iff, hread, Answer.withinContract] using hlen
  rw [phaseRun_cons (phaseStep_openRead hphase hover), respond_of_bytes id hread, openRead_of_bytes hread]
  exact phaseRun_drain avail _ rfl rfl (by simpa using hlen) (by simpa using hmax)

/-- Settles O35: the rows are the response with nothing after it, whose equation (`respond_bytes`) stores the bytes that arrived
from RXBUF[0] on. -/
theorem readTransaction : Obligations.ReadTransaction := by
  intro s avail rest hphase hpending hrange hlist hlen
  have hread : readAnswer s = .bytes avail := by simp [readAnswer, hlist]
  have hmax : s.rxlen.toNat ≤ 4 := by rcases hrange with h | h <;> simp [h]
  refine ⟨_, phaseRun_respond_id hphase hread hlen hmax, ?_⟩
  rw [respond_bytes id s s.opsel avail rfl hread hpending (hlen.trans hmax)]
  refine ⟨fun j hj => ?_, ?_⟩
  · simpa using storeAll_getElem avail s.rxbuf 0 j hj
  · simp only [id_eq, consumeAnswer, hlist, statusEnded, hpending]

end Sys2Proof.Machine
end

section
/-! VALIDATE (42_validate.md): its row as an equation of states, the checksum relation, and what it accepts and catches. -/

namespace Sys2Proof.Machine

/-! ### The checksum relation -/

/-- The verdict as an equation of bytes (R90): the fourth byte is the wrapping sum of the first three. -/
theorem frameValid_iff_sum_eq (rx : Vector Byte 4) : frameValid rx = true ↔ rx[0] + rx[1] + rx[2] = rx[3] := beq_iff_eq

/-- Settles O36: CHECK has one row (`Row.check`), and its verdict is the equation of bytes. -/
theorem validateRow : Obligations.ValidateRow := by
  intro s hphase
  simp only [phaseStep_of_row (.check hphase), rowCheck, checksum, frameValid_iff_sum_eq]

/-- Settles O39: the wrapping sum as a number (`checksum_toNat`, `frameValid_iff`), and addition of bytes commutes. -/
theorem checksumWraps : Obligations.ChecksumWraps := fun x y z w =>
  ⟨checksum_toNat #v[x, y, z, w], congrArg (· + z) (BitVec.add_comm x y), add_right_comm x y z,
    frameValid_iff #v[x, y, z, w]⟩

/-- Settles O41: the one valid fourth byte is the wrapping sum. -/
theorem oneValidChecksumPerPayload : Obligations.OneValidChecksumPerPayload := fun x y z =>
  ⟨x + y + z, (frameValid_iff_sum_eq #v[x, y, z, x + y + z]).mpr rfl,
    fun w hvalid => ((frameValid_iff_sum_eq #v[x, y, z, w]).mp hvalid).symm⟩

/-- Three bytes of a valid frame determine the fourth: each byte can be cancelled from the relation. -/
theorem eq_getElem_of_frameValid_set {rx : Vector Byte 4} {j : Nat} (hj : j < 4) {b : Byte} (hvalid : frameValid rx = true)
    (hset : frameValid (rx.set j b) = true) : b = rx[j] := by
  rw [frameValid_iff_sum_eq] at hvalid hset
  match j, hj with
  | 0, _ =>
    have hsum : b + rx[1] + rx[2] = rx[0] + rx[1] + rx[2] := by simpa [hvalid] using hset
    simpa using hsum
  | 1, _ =>
    have hsum : rx[0] + b + rx[2] = rx[0] + rx[1] + rx[2] := by simpa [hvalid] using hset
    simpa using hsum
  | 2, _ =>
    have hsum : rx[0] + rx[1] + b = rx[0] + rx[1] + rx[2] := by simpa [hvalid] using hset
    simpa using hsum
  | 3, _ =>
    have hsum : rx[0] + rx[1] + rx[2] = b := by simpa using hset
    exact hsum.symm.trans hvalid

/-- Settles O42: if the changed frame were valid too, the byte put in would be the one that was there. -/
theorem singleByteErrorIsCaught : Obligations.SingleByteErrorIsCaught := fun _ _ hj _ hvalid hne =>
  Bool.eq_false_iff.mpr fun hset => hne (eq_getElem_of_frameValid_set hj hvalid hset)

/-! ### A read with no answer -/

/-- All operations but INIT_MEAS judge and convert their response (R94, R107). -/
theorem finish_of_ne_initMeas {i : Instr} (hread : i ≠ .initMeas) : finish i = validateAndDecode := by
  cases i with
  | initMeas => exact absurd rfl hread
  | readCo2 => rfl
  | readTemp => rfl
  | readRh => rfl

/-- The response never sets ERR, whichever operation is drained (R20, R24). -/
theorem drained_status_err (i : Instr) (avail : List Byte) (s : State) : (drained i avail s).status.err = false := by
  rw [drained]
  split <;> rfl

/-- A value of magnitude 0 is the number 0, whatever its divisor (R97). -/
theorem realOf_value_zero (q : BitVec 1) : realOf ⟨.value, 0, q⟩ = some 0 := by
  simp [realOf]

/-- A value of magnitude 0 is the float with all bits 0, in every format and whatever its divisor (R100). -/
theorem floatOf_value_zero (f : FloatFmt) (q : BitVec 1) : floatOf f ⟨.value, 0, q⟩ = some 0 := by
  simp [floatOf, floatMagnitude]

/-- No byte at all leaves the all-zero frame, which is accepted (R83, R93). -/
theorem frameValid_pad4_nil : frameValid (pad4 []) = true := by decide

/-- A drained response with no byte is judged valid and converted to 0 (R93). -/
theorem validateAndDecode_of_pad4_nil {s : State} (hrxbuf : s.rxbuf = pad4 []) :
    (validateAndDecode s).res = ⟨.value, 0, s.divsel⟩ ∧ (validateAndDecode s).status.err = s.status.err := by
  have hmag : magnitude (pad4 []) = 0 := by decide
  rw [validateAndDecode_eq, hrxbuf, if_pos frameValid_pad4_nil, hmag]
  exact ⟨rfl, rfl⟩

/-- Settles O40: the response stays all zero, its frame is accepted, and it is converted to 0 in every view. -/
theorem allZeroFrameIsAccepted : Obligations.AllZeroFrameIsAccepted := by
  refine ⟨frameValid_pad4_nil, fun i s rest hread hready hlist => ?_⟩
  have hnext : nextAnswer (tableRxLen i).toNat (.bytes []) s := .inl ⟨rest, hlist, by simp [Answer.withinContract]⟩
  obtain ⟨hres, herr⟩ := validateAndDecode_of_pad4_nil (s := { drained i [] s with env := exchanged i [] s }) rfl
  refine ⟨_, exec_of_bytes hready hnext, ?_⟩
  rw [finish_of_ne_initMeas hread, hres, herr]
  exact ⟨rfl, rfl, drained_status_err i [] s, realOf_value_zero _, floatOf_value_zero _ _⟩

end Sys2Proof.Machine
end

section
/-! DECODE (43_decode.md): its row as an equation of states, and the exact number its result stands for. -/

namespace Sys2Proof.Machine

/-- Settles O37: DECODE has one row (`Row.decode`), and the byte pair is its number. -/
theorem decodeRow : Obligations.DecodeRow := fun s hphase =>
  ⟨magnitude s.rxbuf, bePair_toNat _ _, phaseStep_of_row (.decode hphase)⟩

/-- A magnitude split into two bytes is put together again (R103). -/
theorem bePair_extractLsb' (m : Half) : bePair (m.extractLsb' 8 8) (m.extractLsb' 0 8) = m := by
  apply BitVec.eq_of_toNat_eq
  rw [bePair_toNat, BitVec.extractLsb'_toNat, BitVec.extractLsb'_toNat, Nat.shiftRight_eq_div_pow, Nat.shiftRight_zero]
  have := m.isLt
  omega

/-- The two divisors (R98). -/
theorem divisor_eq_one_or (q : BitVec 1) : divisor q = 1 ∨ divisor q = 100 := by
  unfold divisor
  split <;> simp

theorem divisor_pos (q : BitVec 1) : 0 < divisor q := by
  rcases divisor_eq_one_or q with h | h <;> simp [h]

@[simp] theorem realOf_value (m : Half) (q : BitVec 1) :
    realOf ⟨.value, m, q⟩ = some ((m.toNat : Rat) / (divisor q : Rat)) := rfl

@[simp] theorem realOf_error (m : Half) (q : BitVec 1) : realOf ⟨.error, m, q⟩ = some (-1) := rfl

/-- Settles O43: a quotient of naturals is not negative, and dividing by a divisor of at least 1 does not make it larger. -/
theorem valuesAreNeverTheSentinel : Obligations.ValuesAreNeverTheSentinel := by
  intro m q
  have hnonneg : (0 : Rat) ≤ (m.toNat : Rat) / (divisor q : Rat) := by positivity
  have hle : (m.toNat : Rat) / (divisor q : Rat) ≤ 65535 := by
    have hm : (m.toNat : Rat) ≤ 65535 := by exact_mod_cast Nat.le_of_lt_succ m.isLt
    exact (div_le_self (Nat.cast_nonneg _) (by exact_mod_cast divisor_pos q)).trans hm
  refine ⟨_, realOf_value m q, ?_, hnonneg, hle, ?_⟩
  · rw [divisor]
    split <;> simp
  · rw [realOf_error, ne_eq, Option.some_inj]
    linarith

end Sys2Proof.Machine
end

section
/-! SUPPORT. Binary floating-point formats (43_decode.md R100): what `floatValue` says of a bit pattern, what `roundHalfEven`
says of a quotient, and that `floatMagnitude` is the nearest number of the format. The format is a parameter (R7, D10). -/

namespace Sys2Proof.Machine

variable {f : FloatFmt}

/-- The distance of neighbouring numbers of the format in the binade of exponent field `ex`. -/
def floatUlp (f : FloatFmt) (ex : Nat) : Rat := 2 ^ ex / 2 ^ (floatBias f + f.fracBits)

theorem floatUlp_pos (f : FloatFmt) (ex : Nat) : 0 < floatUlp f ex := by
  unfold floatUlp
  positivity

theorem floatUlp_add (f : FloatFmt) (ex k : Nat) : floatUlp f (ex + k) = 2 ^ k * floatUlp f ex := by
  unfold floatUlp
  ring

/-! ### The number of a bit pattern -/

theorem two_pow_expBits (hbias : 0 < floatBias f) : 2 ^ f.expBits = 2 * floatBias f + 2 := by
  cases hexp : f.expBits with
  | zero => simp [floatBias, hexp] at hbias
  | succ k =>
    have hpow := Nat.one_le_two_pow (n := k)
    simp only [floatBias, hexp, Nat.add_sub_cancel, pow_succ]
    omega

/-- The exponent and fraction fields put side by side lie below the sign bit. -/
theorem fields_lt {ex frac : Nat} (hex : ex < 2 ^ f.expBits) (hfrac : frac < 2 ^ f.fracBits) :
    ex * 2 ^ f.fracBits + frac < 2 ^ (f.expBits + f.fracBits) := by
  calc ex * 2 ^ f.fracBits + frac < (ex + 1) * 2 ^ f.fracBits := by rw [Nat.succ_mul]; omega
    _ ≤ 2 ^ f.expBits * 2 ^ f.fracBits := Nat.mul_le_mul_right _ hex
    _ = 2 ^ (f.expBits + f.fracBits) := (pow_add ..).symm

theorem toNat_ofNat_fields {n : Nat} (hn : n < 2 ^ (f.expBits + f.fracBits)) :
    (BitVec.ofNat (floatWidth f) n).toNat = n := by
  rw [BitVec.toNat_ofNat, Nat.mod_eq_of_lt]
  exact hn.trans_le (Nat.pow_le_pow_right (by decide) (by rw [floatWidth]; omega))

/-- A positive normal bit pattern is its significand, with the leading 1, times the ulp of its binade. -/
theorem floatValue_normal {ex frac : Nat} (hpos : 0 < ex) (hex : ex + 1 < 2 ^ f.expBits)
    (hfrac : frac < 2 ^ f.fracBits) :
    floatValue f (BitVec.ofNat _ (ex * 2 ^ f.fracBits + frac)) = some ((2 ^ f.fracBits + frac) * floatUlp f ex) := by
  have hlt := fields_lt (f := f) (Nat.lt_of_succ_lt hex) hfrac
  have hfracField : (ex * 2 ^ f.fracBits + frac) % 2 ^ f.fracBits = frac := by
    rw [Nat.mul_add_mod_self_right, Nat.mod_eq_of_lt hfrac]
  have hexField : (ex * 2 ^ f.fracBits + frac) / 2 ^ f.fracBits % 2 ^ f.expBits = ex := by
    rw [Nat.add_comm, Nat.add_mul_div_right _ _ (Nat.two_pow_pos _), Nat.div_eq_of_lt hfrac, zero_add,
      Nat.mod_eq_of_lt (Nat.lt_of_succ_lt hex)]
  have hfinite : ex ≠ 2 ^ f.expBits - 1 := by omega
  simp only [floatValue, toNat_ofNat_fields hlt, hfracField, hexField, Nat.div_eq_of_lt hlt, if_true, if_neg hfinite,
    if_neg hpos.ne', one_mul, floatUlp, mul_div_assoc]

/-- A finite number of the format is a sign times a significand, of at most one bit more than the fraction field, times an
ulp. -/
theorem floatValue_eq_some {c : BitVec (floatWidth f)} {y : Rat} (h : floatValue f c = some y) :
    ∃ (sign : Rat) (sig ex : Nat), (sign = 1 ∨ sign = -1) ∧ sig < 2 ^ (f.fracBits + 1) ∧
      y = sign * (sig * floatUlp f ex) := by
  have hfrac : c.toNat % 2 ^ f.fracBits < 2 ^ f.fracBits := Nat.mod_lt _ (Nat.two_pow_pos _)
  simp only [floatValue] at h
  split at h
  · cases h
  · split at h <;> obtain rfl := Option.some_inj.mp h
    · exact ⟨_, c.toNat % 2 ^ f.fracBits, 1, ite_eq_or_eq .., by omega, by rw [floatUlp]; ring⟩
    · exact ⟨_, 2 ^ f.fracBits + c.toNat % 2 ^ f.fracBits, c.toNat / 2 ^ f.fracBits % 2 ^ f.expBits, ite_eq_or_eq ..,
        by omega, by rw [floatUlp]; push_cast; ring⟩

/-- From the binade of `ex` on, the numbers of the format are multiples of its ulp; the others lie below that binade. -/
theorem floatValue_lt_or_multiple {c : BitVec (floatWidth f)} {y : Rat} (h : floatValue f c = some y)
    (ex : Nat) : y < 2 ^ f.fracBits * floatUlp f ex ∨ ∃ n : Nat, y = n * floatUlp f ex := by
  obtain ⟨sign, sig, e, rfl | rfl, hsig, rfl⟩ := floatValue_eq_some h
  · rw [one_mul]
    rcases Nat.lt_or_ge e ex with hlt | hge
    · left
      obtain ⟨k, rfl⟩ := Nat.exists_eq_add_of_lt hlt
      have hpow : (1 : Rat) ≤ 2 ^ k := one_le_pow₀ (by norm_num)
      have hsig' : (sig : Rat) < 2 ^ (f.fracBits + 1) := by exact_mod_cast hsig
      have hulp := floatUlp_pos f e
      calc (sig : Rat) * floatUlp f e < 2 ^ (f.fracBits + 1) * floatUlp f e := by gcongr
        _ ≤ 2 ^ (f.fracBits + 1) * (2 ^ k * floatUlp f e) := by gcongr; exact le_mul_of_one_le_left hulp.le hpow
        _ = 2 ^ f.fracBits * floatUlp f (e + k + 1) := by rw [add_assoc, floatUlp_add]; ring
    · obtain ⟨k, rfl⟩ := Nat.exists_eq_add_of_le hge
      exact .inr ⟨sig * 2 ^ k, by rw [floatUlp_add]; push_cast; ring⟩
  · left
    have hulp := floatUlp_pos f
    calc -1 * ((sig : Rat) * floatUlp f e) ≤ 0 :=
          mul_nonpos_of_nonpos_of_nonneg (by norm_num) (mul_nonneg sig.cast_nonneg (hulp e).le)
      _ < 2 ^ f.fracBits * floatUlp f ex := mul_pos (by positivity) (hulp ex)

/-! ### Rounding to nearest, ties to even -/

/-- `n` is the integer nearest to `w`, and the even one of two that are equally near. -/
def IsNearestEven (n : Nat) (w : Rat) : Prop := |(n : Rat) - w| < 1 / 2 ∨ |(n : Rat) - w| = 1 / 2 ∧ n % 2 = 0

theorem IsNearestEven.abs_sub_le_half {n : Nat} {w : Rat} (h : IsNearestEven n w) : |(n : Rat) - w| ≤ 1 / 2 :=
  h.elim le_of_lt fun htie => htie.1.le

/-- Every other integer is farther away, or as far and then `n` is even: different integers are at least 1 apart. -/
theorem IsNearestEven.closest {n m : Nat} {w : Rat} (h : IsNearestEven n w) (hne : m ≠ n) :
    |(n : Rat) - w| < |(m : Rat) - w| ∨ |(n : Rat) - w| = |(m : Rat) - w| ∧ n % 2 = 0 := by
  have hapart : (1 : Rat) ≤ |(m : Rat) - n| := by
    exact_mod_cast Int.one_le_abs (sub_ne_zero.mpr (by exact_mod_cast hne : (m : Int) ≠ n))
  have htriangle : |(m : Rat) - n| ≤ |(m : Rat) - w| + |(n : Rat) - w| := by
    rw [abs_sub_comm (n : Rat) w]
    exact abs_sub_le _ _ _
  rcases h with hlt | ⟨htie, heven⟩
  · left; linarith
  · rcases lt_or_eq_of_le (show |(n : Rat) - w| ≤ |(m : Rat) - w| by linarith) with hlt | heq
    · exact .inl hlt
    · exact .inr ⟨heq, heven⟩

theorem IsNearestEven.abs_sub_le_abs_sub {n : Nat} {w : Rat} (h : IsNearestEven n w) (m : Nat) :
    |(n : Rat) - w| ≤ |(m : Rat) - w| := by
  rcases eq_or_ne m n with rfl | hne
  · exact le_rfl
  · exact (h.closest hne).elim le_of_lt fun htie => htie.1.le

/-- An integer is nearest to itself only. -/
theorem IsNearestEven.eq_of_natCast {n m : Nat} (h : IsNearestEven n m) : n = m := by
  by_contra hne
  have hfar := h.closest (m := m) (Ne.symm hne)
  rw [sub_self, abs_zero] at hfar
  rcases hfar with hlt | ⟨heq, -⟩
  · exact absurd hlt (abs_nonneg _).not_gt
  · exact hne (by exact_mod_cast sub_eq_zero.mp (abs_eq_zero.mp heq))

theorem cast_div_eq_quotient_add (num : Nat) {den : Nat} (hden : 0 < den) :
    (num : Rat) / den = (num / den : Nat) + (num % den : Nat) / den := by
  have hne : (den : Rat) ≠ 0 := by exact_mod_cast hden.ne'
  have hdivision : (den : Rat) * (num / den : Nat) + (num % den : Nat) = num := by exact_mod_cast Nat.div_add_mod num den
  rw [← mul_div_cancel_left₀ ((num / den : Nat) : Rat) hne, ← add_div, hdivision]

/-- How far the quotient rounded down is. -/
theorem abs_quotient_sub (num : Nat) {den : Nat} (hden : 0 < den) :
    |((num / den : Nat) : Rat) - num / den| = (num % den : Nat) / den := by
  rw [cast_div_eq_quotient_add num hden, sub_add_cancel_left, abs_neg, abs_of_nonneg (by positivity)]

/-- How far the quotient rounded up is. -/
theorem abs_quotient_succ_sub (num : Nat) {den : Nat} (hden : 0 < den) :
    |((num / den + 1 : Nat) : Rat) - num / den| = 1 - (num % den : Nat) / den := by
  have hlt : ((num % den : Nat) : Rat) / den < 1 := by
    rw [div_lt_one (by exact_mod_cast hden)]
    exact_mod_cast Nat.mod_lt _ hden
  rw [cast_div_eq_quotient_add num hden, Nat.cast_add_one, add_sub_add_left_eq_sub, abs_of_pos (sub_pos.mpr hlt)]

/-- `roundHalfEven` does what its name says: its tests compare the remainder with half the divisor. -/
theorem isNearestEven_roundHalfEven (num : Nat) {den : Nat} (hden : 0 < den) :
    IsNearestEven (roundHalfEven num den) (num / den) := by
  have hden' : (0 : Rat) < den := by exact_mod_cast hden
  have hdown := abs_quotient_sub num hden
  have hup := abs_quotient_succ_sub num hden
  have hbelow : 2 * (num % den) < den ↔ ((num % den : Nat) : Rat) / den < 1 / 2 := by
    rw [div_lt_div_iff₀ hden' two_pos, one_mul, mul_comm]
    exact_mod_cast Iff.rfl
  have habove : den < 2 * (num % den) ↔ 1 / 2 < ((num % den : Nat) : Rat) / den := by
    rw [div_lt_div_iff₀ two_pos hden', one_mul, mul_comm 2]
    exact_mod_cast Iff.rfl
  simp only [roundHalfEven, IsNearestEven]
  split_ifs with hlt hgt heven
  · rw [hdown]
    exact .inl (hbelow.mp hlt)
  · rw [hup]
    exact .inl (by linarith [habove.mp hgt])
  · rw [hdown]
    exact .inr ⟨by linarith [hbelow.not.mp hlt, habove.not.mp hgt], heven⟩
  · rw [hup]
    exact .inr ⟨by linarith [hbelow.not.mp hlt, habove.not.mp hgt], by omega⟩

/-! ### Rounding in a format -/

/-- The bits, without sign, of `sig` ulps of the binade of `ex`. A significand that has reached the next power of two carries
into the exponent field. -/
def floatBits (f : FloatFmt) (ex sig : Nat) : Nat := ex * 2 ^ f.fracBits + (sig - 2 ^ f.fracBits)

/-- `sig` ulps of the normal binade of `ex`, in which `v` lies, is `v` rounded to nearest even. -/
structure IsRounding (f : FloatFmt) (v : Rat) (ex sig : Nat) : Prop where
  ex_pos : 0 < ex
  ex_lt : ex < 2 * floatBias f
  binade_le : 2 ^ f.fracBits * floatUlp f ex ≤ v
  lt_binade : v < 2 ^ (f.fracBits + 1) * floatUlp f ex
  nearest : IsNearestEven sig (v / floatUlp f ex)

section
variable {v : Rat} {ex sig : Nat}

theorem IsRounding.le_sig (h : IsRounding f v ex sig) : 2 ^ f.fracBits ≤ sig := by
  have hlow : (2 : Rat) ^ f.fracBits ≤ v / floatUlp f ex := (le_div_iff₀ (floatUlp_pos f ex)).mpr h.binade_le
  have hnear := (abs_le.mp h.nearest.abs_sub_le_half).1
  exact Nat.lt_succ_iff.mp (by exact_mod_cast (by linarith : (2 : Rat) ^ f.fracBits < sig + 1))

theorem IsRounding.sig_le (h : IsRounding f v ex sig) : sig ≤ 2 ^ (f.fracBits + 1) := by
  have hhigh : v / floatUlp f ex < 2 ^ (f.fracBits + 1) := (div_lt_iff₀ (floatUlp_pos f ex)).mpr h.lt_binade
  have hnear := (abs_le.mp h.nearest.abs_sub_le_half).2
  exact Nat.lt_succ_iff.mp (by exact_mod_cast (by linarith : (sig : Rat) < 2 ^ (f.fracBits + 1) + 1))

theorem IsRounding.expBits_eq (h : IsRounding f v ex sig) :
    2 ^ f.expBits = 2 * floatBias f + 2 :=
  two_pow_expBits (by have := h.ex_lt; omega)

/-- The bits stand for the rounded number, also when the significand carries. -/
theorem IsRounding.floatValue_floatBits (h : IsRounding f v ex sig) :
    floatValue f (BitVec.ofNat _ (floatBits f ex sig)) = some (sig * floatUlp f ex) := by
  have hex := h.ex_lt
  have hexp := h.expBits_eq
  obtain ⟨frac, rfl⟩ := Nat.exists_eq_add_of_le h.le_sig
  have hle := h.sig_le
  rw [pow_succ] at hle
  rw [floatBits, Nat.add_sub_cancel_left]
  rcases Nat.lt_or_ge frac (2 ^ f.fracBits) with hlt | hge
  · rw [floatValue_normal h.ex_pos (by omega) hlt]
    push_cast
    rfl
  · obtain rfl : frac = 2 ^ f.fracBits := by omega
    have hcarry := floatValue_normal (f := f) (Nat.add_one_pos ex) (by omega) (Nat.two_pow_pos _)
    rw [Nat.add_one_mul, add_zero] at hcarry
    rw [hcarry, floatUlp_add]
    push_cast
    congr 1
    ring

/-- The last bit is the last bit of the significand: everything left of it is even. -/
theorem IsRounding.toNat_floatBits_mod_two (h : IsRounding f v ex sig)
    (hfrac : 0 < f.fracBits) : (BitVec.ofNat (floatWidth f) (floatBits f ex sig)).toNat % 2 = sig % 2 := by
  have hwidth : 2 ∣ 2 ^ floatWidth f := dvd_pow_self 2 (by rw [floatWidth]; omega)
  obtain ⟨k, hk⟩ : 2 ∣ 2 ^ f.fracBits := dvd_pow_self 2 hfrac.ne'
  have hle := h.le_sig
  rw [BitVec.toNat_ofNat, Nat.mod_mod_of_dvd _ hwidth, floatBits, hk, Nat.mul_left_comm]
  omega

theorem abs_mul_sub_eq {u : Rat} (hu : 0 < u) (n v : Rat) : |n * u - v| = |n - v / u| * u := by
  rw [← abs_of_pos hu, ← abs_mul, abs_of_pos hu, sub_mul, div_mul_cancel₀ _ hu.ne']

/-- No other number of the format is nearer, nor as near unless the significand is even. The numbers below the binade are beaten
by its least number, the others are multiples of the ulp. -/
theorem IsRounding.closest (h : IsRounding f v ex sig) {c : BitVec (floatWidth f)}
    {y : Rat} (hy : floatValue f c = some y) (hne : y ≠ sig * floatUlp f ex) :
    |sig * floatUlp f ex - v| < |y - v| ∨ |sig * floatUlp f ex - v| = |y - v| ∧ sig % 2 = 0 := by
  have hulp := floatUlp_pos f ex
  rcases floatValue_lt_or_multiple hy ex with hbelow | ⟨n, rfl⟩
  · left
    have hleast : |(sig : Rat) - v / floatUlp f ex| ≤ |2 ^ f.fracBits - v / floatUlp f ex| := by
      exact_mod_cast h.nearest.abs_sub_le_abs_sub (2 ^ f.fracBits)
    calc |sig * floatUlp f ex - v| ≤ |2 ^ f.fracBits * floatUlp f ex - v| := by
          rw [abs_mul_sub_eq hulp, abs_mul_sub_eq hulp]
          gcongr
      _ = v - 2 ^ f.fracBits * floatUlp f ex := by rw [abs_sub_comm, abs_of_nonneg (sub_nonneg.mpr h.binade_le)]
      _ < v - y := sub_lt_sub_left hbelow v
      _ ≤ |y - v| := by rw [abs_sub_comm]; exact le_abs_self _
  · rw [abs_mul_sub_eq hulp, abs_mul_sub_eq hulp, mul_lt_mul_iff_left₀ hulp, mul_left_inj' hulp.ne']
    exact h.nearest.closest (by rintro rfl; exact hne rfl)

end

/-- An integer of at most `fracBits` bits is not changed: it is a multiple of the ulp of its binade. -/
theorem IsRounding.exact {n ex sig : Nat} (h : IsRounding f n ex sig) (hn : n < 2 ^ f.fracBits) :
    sig * floatUlp f ex = n := by
  have hulp : floatUlp f ex < 1 := by
    have hn' : (n : Rat) < 2 ^ f.fracBits * 1 := by
      rw [mul_one]
      exact_mod_cast hn
    exact lt_of_mul_lt_mul_left (h.binade_le.trans_lt hn') (by positivity)
  rw [floatUlp, div_lt_one (by positivity), pow_lt_pow_iff_right₀ one_lt_two] at hulp
  obtain ⟨k, hk⟩ := Nat.exists_eq_add_of_lt hulp
  have hmultiple : (n : Rat) / floatUlp f ex = (n * 2 ^ (k + 1) : Nat) := by
    rw [floatUlp, hk, add_assoc, pow_add]
    push_cast
    field_simp
  have hnearest := h.nearest
  rw [hmultiple] at hnearest
  rw [hnearest.eq_of_natCast, ← hmultiple, div_mul_cancel₀ _ (floatUlp_pos f ex).ne']

/-! ### `floatMagnitude` rounds -/

theorem floatUlp_bias_add (f : FloatFmt) (e : Nat) : floatUlp f (floatBias f + e) = 2 ^ e / 2 ^ f.fracBits := by
  rw [floatUlp, pow_add, pow_add, mul_div_mul_left _ _ (by positivity)]

theorem floatUlp_bias_sub {e : Nat} (he : e ≤ floatBias f) :
    floatUlp f (floatBias f - e) = 1 / 2 ^ (f.fracBits + e) := by
  obtain ⟨ex, hex⟩ := Nat.exists_eq_add_of_le' he
  rw [hex, Nat.add_sub_cancel, floatUlp, hex, add_assoc, pow_add, add_comm e, ← div_div, div_self (by positivity)]

/-- A quotient of at least 1. -/
theorem isRounding_of_le {num den : Nat} (hden : 0 < den) (hle : den ≤ num) (hnum : num < 2 ^ floatBias f) :
    IsRounding f (num / den) (floatBias f + (num / den).log2)
      (roundHalfEven (num * 2 ^ f.fracBits) (den * 2 ^ (num / den).log2)) := by
  have hquot : num / den ≠ 0 := (Nat.div_pos hle hden).ne'
  have hlow : 2 ^ (num / den).log2 ≤ num / den := Nat.log2_self_le hquot
  have hhigh : num / den < 2 ^ ((num / den).log2 + 1) := Nat.lt_log2_self
  have he : (num / den).log2 < floatBias f :=
    (Nat.pow_lt_pow_iff_right one_lt_two).mp ((hlow.trans (Nat.div_le_self ..)).trans_lt hnum)
  generalize (num / den).log2 = e at he hlow hhigh ⊢
  have hden' : (0 : Rat) < den := by exact_mod_cast hden
  rw [Nat.le_div_iff_mul_le hden] at hlow
  rw [Nat.div_lt_iff_lt_mul hden] at hhigh
  refine ⟨by omega, by omega, ?_, ?_, ?_⟩
  · rw [floatUlp_bias_add, mul_div_cancel₀ _ (by positivity), le_div_iff₀ hden']
    exact_mod_cast hlow
  · rw [floatUlp_bias_add, pow_succ', mul_assoc, mul_div_cancel₀ _ (by positivity), ← pow_succ', div_lt_iff₀ hden']
    exact_mod_cast hhigh
  · convert isNearestEven_roundHalfEven (num * 2 ^ f.fracBits) (Nat.mul_pos hden (Nat.two_pow_pos e)) using 1
    rw [floatUlp_bias_add]
    push_cast
    field_simp

/-- A quotient below 1. -/
theorem isRounding_of_lt {num den : Nat} (hnum : 0 < num) (hlt : num < den)
    (hden : den < 2 ^ (floatBias f - 1)) :
    IsRounding f (num / den) (floatBias f - (((den - 1) / num).log2 + 1))
      (roundHalfEven (num * 2 ^ (f.fracBits + (((den - 1) / num).log2 + 1))) den) := by
  have hquot : (den - 1) / num ≠ 0 := (Nat.div_pos (by omega) hnum).ne'
  have hlow : 2 ^ ((den - 1) / num).log2 ≤ (den - 1) / num := Nat.log2_self_le hquot
  have hhigh : (den - 1) / num < 2 ^ (((den - 1) / num).log2 + 1) := Nat.lt_log2_self
  have hk : ((den - 1) / num).log2 < floatBias f - 1 :=
    (Nat.pow_lt_pow_iff_right one_lt_two).mp
      (((hlow.trans (Nat.div_le_self ..)).trans (Nat.sub_le den 1)).trans_lt hden)
  generalize ((den - 1) / num).log2 = k at hk hlow hhigh ⊢
  have hden' : (0 : Rat) < den := by exact_mod_cast hnum.trans hlt
  rw [Nat.le_div_iff_mul_le hnum] at hlow
  rw [Nat.div_lt_iff_lt_mul hnum] at hhigh
  have hbinade : 2 ^ f.fracBits * floatUlp f (floatBias f - (k + 1)) = 1 / 2 ^ (k + 1) := by
    rw [floatUlp_bias_sub (by omega), pow_add, mul_one_div, ← div_div, div_self (by positivity)]
  refine ⟨by omega, by omega, ?_, ?_, ?_⟩
  · rw [hbinade, div_le_div_iff₀ (by positivity) hden', one_mul, mul_comm]
    exact_mod_cast (by omega : den ≤ 2 ^ (k + 1) * num)
  · rw [pow_succ', mul_assoc, hbinade, pow_succ', ← div_div, ← mul_div_assoc, mul_div_cancel₀ _ two_ne_zero,
      div_lt_div_iff₀ hden' (by positivity), one_mul, mul_comm]
    exact_mod_cast (by omega : 2 ^ k * num < den)
  · convert isNearestEven_roundHalfEven (num * 2 ^ (f.fracBits + (k + 1))) (hnum.trans hlt) using 1
    rw [floatUlp_bias_sub (by omega)]
    push_cast
    field_simp

/-- `floatMagnitude` is the quotient rounded to the format, within the format's normal range (R100). -/
theorem exists_isRounding_floatMagnitude {num den : Nat} (hnum : 0 < num) (hden : 0 < den)
    (hnumlt : num < 2 ^ floatBias f) (hdenlt : den < 2 ^ (floatBias f - 1)) :
    ∃ ex sig, floatMagnitude f num den = floatBits f ex sig ∧ IsRounding f (num / den) ex sig := by
  rcases Nat.lt_or_ge num den with hlt | hle
  · exact ⟨_, _, by rw [floatMagnitude, if_neg hnum.ne', if_neg hlt.not_ge]; rfl, isRounding_of_lt hnum hlt hdenlt⟩
  · exact ⟨_, _, by rw [floatMagnitude, if_neg hnum.ne', if_pos hle]; rfl, isRounding_of_le hden hle hnumlt⟩

end Sys2Proof.Machine
end

section
/-! The floating-point view of RES in binary32 (43_decode.md R100, R101, R103), log 13. -/

namespace Sys2Proof.Machine

theorem floatOf_value (f : FloatFmt) (m : Half) (q : BitVec 1) :
    floatOf f ⟨.value, m, q⟩ = some (BitVec.ofNat _ (floatMagnitude f m.toNat (divisor q))) := rfl

/-- The error result in binary32, whatever its other fields hold. -/
theorem floatOf_error_binary32 (m : Half) (q : BitVec 1) :
    floatOf Config.binary32 ⟨.error, m, q⟩ = some 0xBF800000 := by
  have hone : floatMagnitude Config.binary32 1 1 = 127 * 2 ^ 23 := by decide
  simp only [floatOf, hone]
  rfl

theorem floatValue_sentinel : floatValue Config.binary32 0xBF800000 = some (-1) := by
  have hnumber : (0xBF800000 : BitVec (floatWidth Config.binary32)).toNat = 0xBF800000 := rfl
  norm_num [floatValue, hnumber, Config.binary32, floatBias]

theorem floatValue_zero : floatValue Config.binary32 0 = some 0 := by
  have hnumber : (0 : BitVec (floatWidth Config.binary32)).toNat = 0 := rfl
  norm_num [floatValue, hnumber, Config.binary32]

/-- Settles O44: FAIL leaves the error result. -/
theorem sentinelIsMinusOne : Obligations.SentinelIsMinusOne :=
  ⟨realOf_error 0 0, floatOf_error_binary32 0 0, floatValue_sentinel⟩

/-- Every value but 0 is within the normal range of binary32, so its view is rounded in a normal binade. -/
theorem exists_isRounding_binary32 {m : Half} (hm : m ≠ 0) (q : BitVec 1) :
    ∃ ex sig, floatMagnitude Config.binary32 m.toNat (divisor q) = floatBits Config.binary32 ex sig ∧
      IsRounding Config.binary32 ((m.toNat : Rat) / (divisor q : Rat)) ex sig := by
  have hpos : 0 < m.toNat := Nat.pos_of_ne_zero fun h => hm (BitVec.eq_of_toNat_eq h)
  have hlt : m.toNat < 2 ^ 127 := m.isLt.trans (by decide)
  have hdivisor : divisor q < 2 ^ 126 := by rcases divisor_eq_one_or q with h | h <;> rw [h] <;> decide
  exact exists_isRounding_floatMagnitude hpos (divisor_pos q) hlt hdivisor

/-- A number of the format that is the exact value is nearer than every other. -/
theorem closest_of_eq {x v y : Rat} {P : Prop} (hx : x = v) (hne : y ≠ x) :
    |x - v| < |y - v| ∨ |x - v| = |y - v| ∧ P := by
  left
  rw [hx, sub_self, abs_zero, abs_pos, sub_ne_zero, ← hx]
  exact hne

/-- Settles O46: the sentinel and 0 are numbers of the format; every other value is rounded in its binade
(`IsRounding.closest`). -/
theorem floatViewIsNearestEven : Obligations.FloatViewIsNearestEven := by
  rintro ⟨kind, m, q⟩ hkind
  cases kind with
  | none => exact absurd rfl hkind
  | error =>
    exact ⟨-1, 0xBF800000, -1, realOf_error m q, floatOf_error_binary32 m q, floatValue_sentinel,
      fun _ _ _ hne => closest_of_eq rfl hne⟩
  | value =>
    by_cases hm : m = 0
    · subst hm
      exact ⟨0, 0, 0, realOf_value_zero q, floatOf_value_zero _ q, floatValue_zero, fun _ _ _ hne => closest_of_eq rfl hne⟩
    · obtain ⟨ex, sig, hbits, hround⟩ := exists_isRounding_binary32 hm q
      refine ⟨_, _, _, realOf_value m q, floatOf_value _ m q, hbits ▸ hround.floatValue_floatBits, fun c y hy hne => ?_⟩
      rw [hbits]
      refine (hround.closest hy hne).imp_right fun ⟨htie, heven⟩ => ⟨htie, ?_⟩
      exact (hround.toNat_floatBits_mod_two (by decide)).trans heven

/-- With divisor 1 the floating-point view is the magnitude itself (R103). -/
theorem exists_floatOf_eq_magnitude (m : Half) :
    ∃ b : BitVec 32, floatOf Config.binary32 ⟨.value, m, 0⟩ = some b ∧
      floatValue Config.binary32 b = some (m.toNat : Rat) := by
  by_cases hm : m = 0
  · subst hm
    exact ⟨0, floatOf_value_zero _ 0, floatValue_zero⟩
  · obtain ⟨ex, sig, hbits, hround⟩ := exists_isRounding_binary32 hm 0
    have hdivisor : (divisor 0 : Rat) = 1 := by simp [divisor]
    rw [hdivisor, div_one] at hround
    refine ⟨_, floatOf_value _ m 0, ?_⟩
    rw [hbits, ← hround.exact (m.isLt.trans (by decide))]
    exact hround.floatValue_floatBits

/-- Settles O45: DECODE puts the two bytes together again, and with divisor 1 nothing is lost in either view. -/
theorem roundTripOfTheMagnitude : Obligations.RoundTripOfTheMagnitude := by
  intro s m hphase hhigh hlow
  have hres : (rowDecode s).res = ⟨.value, m, s.divsel⟩ := by
    have hmag : magnitude s.rxbuf = m := by rw [magnitude, hhigh, hlow, bePair_extractLsb']
    rw [← hmag]
    rfl
  refine ⟨rowDecode s, phaseStep_of_row (.decode hphase), ?_⟩
  rw [hres]
  refine ⟨rfl, rfl, rfl, fun hdivsel => ?_⟩
  obtain ⟨b, hview, hvalue⟩ := exists_floatOf_eq_magnitude m
  rw [hdivsel]
  exact ⟨b, by simp [divisor], hview, hvalue⟩

end Sys2Proof.Machine
end

section
/-! The four operations (44_operations.md R108 to R111): the whole next state for the bytes that arrive, from the general form
`exec_of_bytes`. -/

namespace Sys2Proof.Machine

/-- A listed answer no longer than the read asks for is the next one (20_memory.md R45, 41_exchange.md R84). -/
theorem nextAnswer_of_listed {n : Nat} {avail : List Byte} {rest : List Answer} {s : State}
    (hlist : s.env.answers = .bytes avail :: rest) (hlen : avail.length ≤ n) : nextAnswer n (.bytes avail) s :=
  .inl ⟨rest, hlist, by simpa [Answer.withinContract] using hlen⟩

/-- The environment after an operation that used up a listed answer: no free answer is counted. -/
theorem exchanged_of_listed (i : Instr) {avail : List Byte} {rest : List Answer} {s : State}
    (hlist : s.env.answers = .bytes avail :: rest) :
    exchanged i avail s =
      { engineOn := true
        lineLow := false
        rxQueue := []
        readPending := false
        trace := s.env.trace ++ exchangeTrace s.addr (encode i) (tableRxLen i).toNat avail
        answers := rest
        draws := s.env.draws
        starts := s.env.starts } := by
  simp [exchanged, consumeAnswer, hlist, operationTrace]

/-- Settles O20: INIT_MEAS is over when its response is drained, so nothing looks at the bytes. -/
theorem initMeasResult : Obligations.InitMeasResult := by
  intro s avail rest hready hlist hlen
  have hnext : nextAnswer (tableRxLen .initMeas).toNat (.bytes avail) s := nextAnswer_of_listed hlist hlen
  rw [exec_of_bytes hready hnext, exchanged_of_listed .initMeas hlist]
  rfl

/-! ### The three reads -/

/-- The table row of a read (30_encoding.md R65): a frame of 4 bytes, 4 bytes asked for, and a select code other than 0. -/
theorem readRow_of_ne_initMeas {i : Instr} (hread : i ≠ .initMeas) :
    i.opSel ≠ 0 ∧ tableTxLen i = 4 ∧ tableRxLen i = 4 ∧
      encode i = [(tableFrame i)[0], (tableFrame i)[1], (tableFrame i)[2], (tableFrame i)[3]] := by
  cases i with
  | initMeas => exact absurd rfl hread
  | readCo2 | readTemp | readRh => exact ⟨by decide, rfl, rfl, rfl⟩

/-- VALIDATE and DECODE turn a drained response into `readResult`, by the verdict on its checksum (R109 to R112). -/
theorem validateAndDecode_drained {i : Instr} (hread : i ≠ .initMeas) {avail : List Byte} {rest : List Answer} {s : State}
    (hlist : s.env.answers = .bytes avail :: rest) :
    validateAndDecode { drained i avail s with env := exchanged i avail s } =
      readResult s i.opSel (tableFrame i) (tableDivSel i) avail rest := by
  obtain ⟨hsel, htxlen, hrxlen, hframe⟩ := readRow_of_ne_initMeas hread
  have hverdict : frameValid (pad4 avail) = true ↔ avail.getD 0 0 + avail.getD 1 0 + avail.getD 2 0 = avail.getD 3 0 :=
    frameValid_iff_sum_eq (pad4 avail)
  rw [validateAndDecode_eq, exchanged_of_listed i hlist, hframe, hrxlen]
  simp only [drained, accept, readResult, htxlen, hrxlen, if_neg hsel]
  by_cases hsum : avail.getD 0 0 + avail.getD 1 0 + avail.getD 2 0 = avail.getD 3 0
  · rw [if_pos (hverdict.mpr hsum), if_pos hsum, if_pos hsum, decide_eq_false (not_not_intro hsum)]
    rfl
  · rw [if_neg (mt hverdict.mp hsum), if_neg hsum, if_neg hsum, decide_eq_true hsum]
    rfl

/-- The whole next state of a read, whatever bytes arrive. -/
theorem exec_eq_readResult {i : Instr} (hread : i ≠ .initMeas) {s : State} {avail : List Byte} {rest : List Answer}
    (hready : s.ready) (hlist : s.env.answers = .bytes avail :: rest) (hlen : avail.length ≤ 4) :
    exec i s = .next (readResult s i.opSel (tableFrame i) (tableDivSel i) avail rest) := by
  obtain ⟨-, -, hrxlen, -⟩ := readRow_of_ne_initMeas hread
  have hnext : nextAnswer (tableRxLen i).toNat (.bytes avail) s := nextAnswer_of_listed hlist (by rw [hrxlen]; exact hlen)
  rw [exec_of_bytes hready hnext, finish_of_ne_initMeas hread, validateAndDecode_drained hread hlist]

/-- Settles O21: READ_CO2 is the read with scale divisor 1 (`exec_eq_readResult`). -/
theorem readCo2Result : Obligations.ReadCo2Result :=
  fun _ _ _ hready hlist hlen => exec_eq_readResult (i := .readCo2) (by decide) hready hlist hlen

/-- Settles O22: READ_TEMP is a read with scale divisor 100 (`exec_eq_readResult`). -/
theorem readTempResult : Obligations.ReadTempResult :=
  fun _ _ _ hready hlist hlen => exec_eq_readResult (i := .readTemp) (by decide) hready hlist hlen

/-- Settles O23: READ_RH is a read with scale divisor 100 (`exec_eq_readResult`). -/
theorem readRhResult : Obligations.ReadRhResult :=
  fun _ _ _ hready hlist hlen => exec_eq_readResult (i := .readRh) (by decide) hready hlist hlen

end Sys2Proof.Machine
end

section
/-! ChecksumMismatch (60_exceptions.md R118): what the FAIL row writes, the way there from CHECK, and the only rows that lead to
the two phases. -/

namespace Sys2Proof.Machine

/-- After a byte of the frame the block is still in its write transaction (R79). -/
theorem phaseAfterByte_ne {p : Phase} (hbyte : p ≠ .txByte) (hend : p ≠ .txEnd) (idx txlen : BitVec 3) :
    phaseAfterByte idx txlen ≠ p := by
  unfold phaseAfterByte
  split
  · exact hbyte.symm
  · exact hend.symm

/-- Only a CHECK whose verdict is against the frame leads to FAIL (R118): of the rows that do not end in a phase of their own,
TX_BYTE stays in the write transaction, and the row that waits and the idle row stay where they are. -/
theorem Row.check_of_fail {s t : State} (h : Row s t) (hfail : t.phase = .fail) :
    s.phase = .check ∧ ¬ frameValid s.rxbuf = true := by
  cases h with
  | check hphase => exact ⟨hphase, fun hvalid => by simp [hvalid] at hfail⟩
  | txByte => exact absurd hfail (phaseAfterByte_ne (by decide) (by decide) _ _)
  | stay hphase | readHangs hphase => simp [hphase] at hfail
  | _ => simp at hfail

/-- Only the last poll of a read leads to CHECK (R82, R94). -/
theorem Row.rxPoll_of_check {s t : State} (h : Row s t) (hcheck : t.phase = .check) :
    s.phase = .rxPoll ∧ s.opsel ≠ 0 := by
  cases h with
  | pollCheck hphase hqueue hread => exact ⟨hphase, hread⟩
  | check hphase => cases hvalid : frameValid s.rxbuf <;> simp [hvalid] at hcheck
  | txByte => exact absurd hcheck (phaseAfterByte_ne (by decide) (by decide) _ _)
  | stay hphase | readHangs hphase => simp [hphase] at hcheck
  | _ => simp at hcheck

/-- Settles O38: FAIL has one row (`Row.fail`), CHECK and FAIL together are `validateAndDecode`, and the table names what leads
to either. -/
theorem failRow : Obligations.FailRow := by
  refine ⟨fun s hphase => phaseStep_of_row (.fail hphase), fun s hphase hsum => ?_, fun s t hstep hfail => ?_,
    fun s t hstep hcheck => (row_of_step hstep).rxPoll_of_check hcheck⟩
  · rw [phaseRun_validateAndDecode hphase, validateAndDecode_eq, if_neg (mt (frameValid_iff_sum_eq s.rxbuf).mp hsum)]
    rfl
  · obtain ⟨hphase, hinvalid⟩ := (row_of_step hstep).check_of_fail hfail
    exact ⟨hphase, mt (frameValid_iff_sum_eq s.rxbuf).mpr hinvalid⟩

end Sys2Proof.Machine
end

section
/-! The block between operations (70_reset_and_hazards.md R137, 20_memory.md R50): in IDLE with no start on the port it stands
still. -/

namespace Sys2Proof.Machine

/-- Settles O10: without a start, IDLE's row is the one that stays (`Row.stay`), and a row is what `step` answers. -/
theorem idleDoesNothingWithoutStart : Obligations.IdleDoesNothingWithoutStart :=
  fun _ hphase hstarts => step_of_row (.stay hphase hstarts)

end Sys2Proof.Machine
end
